-- ==== Sys2Proof/Word.lean ====
section
/-! DEFINITION. The word, byte and offset types of SHA256-CORE (spec/00_scope.md R7: a word is 32 bits, a byte is
8 bits, every value is unsigned). Word addition is `BitVec` addition, which wraps modulo 2^32 (R8). -/

namespace Sys2Proof

/-- A 32-bit word (R7): hash-state words, schedule words, working registers, DATA, command words. -/
abbrev Word := BitVec 32

/-- An 8-bit byte (R7): message bytes and staging-buffer bytes. -/
abbrev Byte := BitVec 8

/-- A byte offset 0x00..0xFF in the 256-byte register window (spec/20_memory.md R32; HOST_OFFSET_BITS = 8, R6). -/
abbrev Offset := BitVec 8

end Sys2Proof
end

