-- ==== Sys2Proof/Syntax.lean ====
section
/-! DEFINITION. The commands of SHA256-CORE: one constructor per row of spec/opcode_table.json. The block executes no
stored program (spec/10_state.md R27): an instruction is a command word the host writes to CMD. -/

namespace Sys2Proof

/-- The eight legal commands (spec/30_encoding.md R49, R51). UPDATE has one constructor per byte count N, because the
opcode table has one row per N. The message bytes are no field: they are an implicit operand, read from DATA when the
command executes (R50). -/
inductive Instr where
  /-- NOP (R56): no effect. -/
  | nop
  /-- INIT (R57): a fresh engine. -/
  | init
  /-- UPDATE with N = 0 (R61): feeds no byte, but is checked against the phase. -/
  | update0
  /-- UPDATE with N = 1 (R61). -/
  | update1
  /-- UPDATE with N = 2 (R61). -/
  | update2
  /-- UPDATE with N = 3 (R61). -/
  | update3
  /-- UPDATE with N = 4 (R61). -/
  | update4
  /-- FINALIZE (R83): pads, compresses and closes the message. -/
  | finalize
  deriving DecidableEq, Repr

end Sys2Proof
end

