-- ==== Sys2Proof/WellFormed.lean ====
section
/-! DEFINITION. The fields of a command word (spec/30_encoding.md R48) and which combinations of them are legal
(R49, R50, R52). A constructor of Instr carries no operand, so what can be ill-formed is the triple of fields. -/

namespace Sys2Proof

/-- The three fields of format C (R48): OP in bits 3:0, N in bits 6:4, RSV in bits 31:7. -/
structure CommandFields where
  op : BitVec 4
  n : BitVec 3
  rsv : BitVec 25
  deriving DecidableEq, Repr

namespace CommandFields

/-- RSV must be 0 (R48). -/
def rsvZero (f : CommandFields) : Bool := f.rsv == 0

/-- OP is one of the four assigned operation codes; 0x4..0xF are reserved (R49, R52). -/
def opAssigned (f : CommandFields) : Bool := decide (f.op.toNat ≤ 3)

/-- N is 0..4 for UPDATE (OP = 2) and 0 for every other OP (R48, R50). -/
def countLegal (f : CommandFields) : Bool :=
  if f.op == 2 then decide (f.n.toNat ≤ 4) else f.n == 0

/-- The fields of a legal command word (R52: every other word is illegal). -/
def wellFormed (f : CommandFields) : Bool := f.rsvZero && f.opAssigned && f.countLegal

end CommandFields

/-- The fields the encoding gives a command (R49 for OP, R50 for N, R48 for RSV). -/
def Instr.fields : Instr → CommandFields
  | .nop => ⟨0, 0, 0⟩
  | .init => ⟨1, 0, 0⟩
  | .update0 => ⟨2, 0, 0⟩
  | .update1 => ⟨2, 1, 0⟩
  | .update2 => ⟨2, 2, 0⟩
  | .update3 => ⟨2, 3, 0⟩
  | .update4 => ⟨2, 4, 0⟩
  | .finalize => ⟨3, 0, 0⟩

/-- An instruction is well-formed when its fields are those of a legal command word. -/
abbrev Instr.WellFormed (i : Instr) : Prop := i.fields.wellFormed = true

end Sys2Proof
end

