-- ==== Sys2Proof/Decode.lean ====
section
/-! DEFINITION. The decoder of spec/30_encoding.md R51, total over all 2^32 words, and the encoder of R48 to R50.
A word the decoder refuses is an illegal command: executing it is described by spec/60_exceptions.md R88 and is
modelled in Machine/HostPort.lean (execute). -/

namespace Sys2Proof

/-- Why a word is illegal: the four cases of R52. The hardware does not tell them apart (all record ILLEGAL_COMMAND);
the names are the model's (assumption log 5). -/
inductive DecodeError where
  /-- RSV (bits 31:7) is not 0. -/
  | reservedBits
  /-- OP is in 0x4..0xF. -/
  | reservedOp
  /-- UPDATE with N in 5..7. -/
  | updateCount
  /-- NOP, INIT or FINALIZE with N ≠ 0. -/
  | strayCount
  deriving DecidableEq, Repr

/-- `cmd[3:0]`, the field OP (R48). -/
def opField (cmd : Word) : BitVec 4 := cmd.extractLsb' 0 4

/-- `cmd[6:4]`, the field N (R48, R50). -/
def countField (cmd : Word) : BitVec 3 := cmd.extractLsb' 4 3

/-- `cmd[31:7]`, the field RSV (R48). -/
def rsvField (cmd : Word) : BitVec 25 := cmd.extractLsb' 7 25

/-- UPDATE with byte count N, where N is legal (R50: 0, 1, 2, 3 and 4). -/
def updateOfCount (n : BitVec 3) : Option Instr :=
  if n = 0 then some .update0
  else if n = 1 then some .update1
  else if n = 2 then some .update2
  else if n = 3 then some .update3
  else if n = 4 then some .update4
  else none

/-- Names the case of R52 a refused word falls under; the order of the checks is the model's (assumption log 5). -/
def illegalReason (cmd : Word) : DecodeError :=
  if rsvField cmd ≠ 0 then .reservedBits
  else if 3 < (opField cmd).toNat then .reservedOp
  else if opField cmd = 2 then .updateCount
  else .strayCount

/-- `Decode(cmd)` of R51: exactly eight words are legal. -/
def decode (cmd : Word) : Except DecodeError Instr :=
  if cmd = 0x00000000 then .ok .nop
  else if cmd = 0x00000001 then .ok .init
  else if cmd = 0x00000003 then .ok .finalize
  else if rsvField cmd = 0 ∧ opField cmd = 2 then
    match updateOfCount (countField cmd) with
    | some i => .ok i
    | none => .error (illegalReason cmd)
  else .error (illegalReason cmd)

/-- Packs the three fields into a word: RSV in bits 31:7, N in bits 6:4, OP in bits 3:0 (R48). -/
def CommandFields.pack (f : CommandFields) : Word := (f.rsv ++ f.n ++ f.op : BitVec 32)

/-- The command word of an instruction, from the field tables of R48 to R50. -/
def encode (i : Instr) : Word := i.fields.pack

/-- The number `w` of the opcode table's bits as a command word: a command is one 32-bit word (R47), so bit j of the
table is bit j of the word, and bits above `nbits` are 0. -/
def tableWord (nbits w : Nat) : Word := BitVec.ofNat 32 (w % 2 ^ nbits)

/-- The instruction the decoder reads from a row's word. -/
def decodeTableWord (nbits w : Nat) : Option Instr :=
  match decode (tableWord nbits w) with
  | .ok i => some i
  | .error _ => none

end Sys2Proof
end

