-- ==== Sys2Proof/Config.lean ====
section
/-! DEFINITION. What an implementation fixes, and the free values. The fixed parameters of spec/00_scope.md R6 stand
in the types of the model (widths and lengths); the parameters R6 leaves OPEN and that no rule reads stand here as
constants with no body. BASE and N_INSTANCES are data of a platform (Machine/Platform.lean). -/

namespace Sys2Proof.Config

/-- Whether the reset input is synchronous or asynchronous (R6 RESET_KIND). -/
inductive ResetKind where
  | synchronous
  | asynchronous
  deriving DecidableEq, Repr, Inhabited

/-- RESET_KIND, OPEN: no rule depends on it (R6, R99; spec/92_eei_decisions.md D18). Nothing in the model reads it. -/
opaque resetKind : ResetKind

/-- BLOCK_LATENCY, OPEN: no rule depends on it (R6, R108; spec/92_eei_decisions.md D19). Nothing in the model reads it. -/
opaque blockLatency : Nat

/-- The n-th word that the spec calls `any value`: `W` and `a..h` outside a compression (R21, R22; assumption log 2). -/
opaque freeWord : Nat → Word

/-- The n-th byte that the spec calls `any value`: `BUF[FILL..63]` (R13, R31; assumption log 2). -/
opaque freeByte : Nat → Byte

end Sys2Proof.Config
end

