-- ==== Sys2Proof/Machine/Bits.lean ====
section
/-! DEFINITION. Word operators and byte order (spec/00_scope.md R8, R9; spec/20_memory.md R38). Every multi-byte
quantity of this hardware is big-endian. -/

namespace Sys2Proof.Machine

/-- `x >> n`, the logical right shift, zero-filling from bit 31 (R8). -/
def shr (x : Word) (n : Nat) : Word := x >>> n

/-- `rotr(x, n) = ((x >> n) or (x << (32 - n))) mod 2^32`, for 0 < n < 32 (R8). -/
def rotr (x : Word) (n : Nat) : Word := (x >>> n) ||| (x <<< (32 - n))

/-- `be32(b0, b1, b2, b3)`: four bytes as a big-endian word, `b0` in bits 31:24 (R9). -/
def be32 (b0 b1 b2 b3 : Byte) : Word := (b0 ++ b1 ++ b2 ++ b3 : BitVec 32)

/-- `bytes_be32(w)`: a word as four bytes, most significant first (R9). -/
def bytesBe32 (w : Word) : List Byte :=
  [w.extractLsb' 24 8, w.extractLsb' 16 8, w.extractLsb' 8 8, w.extractLsb' 0 8]

/-- `bytes_be64(v)`: a 64-bit value as eight bytes, most significant first (R9). -/
def bytesBe64 (v : BitVec 64) : List Byte :=
  bytesBe32 (v.extractLsb' 32 32) ++ bytesBe32 (v.extractLsb' 0 32)

end Sys2Proof.Machine
end

