-- ==== Sys2Proof/Machine/Rom.lean ====
section
/-! DEFINITION. The two constant ROMs. They are constant (spec/10_state.md R26): no command, host access or reset
changes them, so they are definitions and not fields of State. -/

namespace Sys2Proof.Machine

/-- The IV ROM, `IV[0..7]` (R24). -/
def ivRom : Vector Word 8 :=
  #v[0x6a09e667#32, 0xbb67ae85#32, 0x3c6ef372#32, 0xa54ff53a#32,
     0x510e527f#32, 0x9b05688c#32, 0x1f83d9ab#32, 0x5be0cd19#32]

/-- Row 0 of the round-constant table of R25: `K[0..7]`. -/
def kRow0 : List Word :=
  [0x428a2f98#32, 0x71374491#32, 0xb5c0fbcf#32, 0xe9b5dba5#32,
   0x3956c25b#32, 0x59f111f1#32, 0x923f82a4#32, 0xab1c5ed5#32]

/-- Row 1 of the round-constant table of R25: `K[8..15]`. -/
def kRow1 : List Word :=
  [0xd807aa98#32, 0x12835b01#32, 0x243185be#32, 0x550c7dc3#32,
   0x72be5d74#32, 0x80deb1fe#32, 0x9bdc06a7#32, 0xc19bf174#32]

/-- Row 2 of the round-constant table of R25: `K[16..23]`. -/
def kRow2 : List Word :=
  [0xe49b69c1#32, 0xefbe4786#32, 0x0fc19dc6#32, 0x240ca1cc#32,
   0x2de92c6f#32, 0x4a7484aa#32, 0x5cb0a9dc#32, 0x76f988da#32]

/-- Row 3 of the round-constant table of R25: `K[24..31]`. -/
def kRow3 : List Word :=
  [0x983e5152#32, 0xa831c66d#32, 0xb00327c8#32, 0xbf597fc7#32,
   0xc6e00bf3#32, 0xd5a79147#32, 0x06ca6351#32, 0x14292967#32]

/-- Row 4 of the round-constant table of R25: `K[32..39]`. -/
def kRow4 : List Word :=
  [0x27b70a85#32, 0x2e1b2138#32, 0x4d2c6dfc#32, 0x53380d13#32,
   0x650a7354#32, 0x766a0abb#32, 0x81c2c92e#32, 0x92722c85#32]

/-- Row 5 of the round-constant table of R25: `K[40..47]`. -/
def kRow5 : List Word :=
  [0xa2bfe8a1#32, 0xa81a664b#32, 0xc24b8b70#32, 0xc76c51a3#32,
   0xd192e819#32, 0xd6990624#32, 0xf40e3585#32, 0x106aa070#32]

/-- Row 6 of the round-constant table of R25: `K[48..55]`. -/
def kRow6 : List Word :=
  [0x19a4c116#32, 0x1e376c08#32, 0x2748774c#32, 0x34b0bcb5#32,
   0x391c0cb3#32, 0x4ed8aa4a#32, 0x5b9cca4f#32, 0x682e6ff3#32]

/-- Row 7 of the round-constant table of R25: `K[56..63]`. -/
def kRow7 : List Word :=
  [0x748f82ee#32, 0x78a5636f#32, 0x84c87814#32, 0x8cc70208#32,
   0x90befffa#32, 0xa4506ceb#32, 0xbef9a3f7#32, 0xc67178f2#32]

/-- The round-constant ROM as one list, rows 0 to 7 of R25 in order. -/
def kList : List Word :=
  kRow0 ++ kRow1 ++ kRow2 ++ kRow3 ++ kRow4 ++ kRow5 ++ kRow6 ++ kRow7

/-- The round-constant ROM, `K[0..63]` (R25). -/
def kRom : Vector Word 64 := ⟨⟨kList⟩, by decide⟩

end Sys2Proof.Machine
end

