-- ==== Sys2Proof/Machine/Engine.lean ====
section
/-! DEFINITION. The block compression function and its parts as pure functions (spec/42_compression.md R65 to R76).
The machine itself compresses by the sequencer of Machine/Sequencer.lean (R77), which uses `sigma0`, `round` and the
rest of this file's parts; `compress` is the function it computes (R78). Nothing here writes a flag or raises an error (R91). -/

namespace Sys2Proof.Machine

/-- The working registers `a..h` (spec/10_state.md R22). -/
structure WorkRegs where
  a : Word
  b : Word
  c : Word
  d : Word
  e : Word
  f : Word
  g : Word
  h : Word
  deriving DecidableEq, Repr

/-- `σ0` (R67). -/
def sigma0 (x : Word) : Word := rotr x 7 ^^^ rotr x 18 ^^^ shr x 3

/-- `σ1` (R68). -/
def sigma1 (x : Word) : Word := rotr x 17 ^^^ rotr x 19 ^^^ shr x 10

/-- `Σ1` (R70). -/
def bigSigma1 (e : Word) : Word := rotr e 6 ^^^ rotr e 11 ^^^ rotr e 25

/-- `Σ0` (R71). -/
def bigSigma0 (a : Word) : Word := rotr a 2 ^^^ rotr a 13 ^^^ rotr a 22

/-- `Ch` (R72). -/
def ch (e f g : Word) : Word := (e &&& f) ^^^ (~~~e &&& g)

/-- `Maj` (R73). -/
def maj (a b c : Word) : Word := (a &&& b) ^^^ (a &&& c) ^^^ (b &&& c)

/-- A round number as an index of a 64-entry array; every use has n ≤ 63, where it is n itself. -/
def index64 (n : Nat) : Fin 64 := ⟨n % 64, Nat.mod_lt n (by decide)⟩

/-- Word t of the block load: `be32(B[4t], B[4t+1], B[4t+2], B[4t+3])` (R66, R38). -/
def blockWord (B : Vector Byte 64) (t : Fin 16) : Word :=
  be32 B[4 * t.val] B[4 * t.val + 1] B[4 * t.val + 2] B[4 * t.val + 3]

/-- The schedule with `W[0..15]` loaded from the block and the rest as `W` had it (R66). -/
def loadBlock (B : Vector Byte 64) (W : Vector Word 64) : Vector Word 64 :=
  Vector.ofFn fun t : Fin 64 => if h : t.val < 16 then blockWord B ⟨t.val, h⟩ else W[t]

/-- The value R69 gives `W[t]` for t in 16..63, from the four earlier words it reads. -/
def expandWord (W : Vector Word 64) (t : Fin 64) : Word :=
  W[t - 16] + sigma0 W[t - 15] + W[t - 7] + sigma1 W[t - 2]

/-- Schedule step t: writes `W[t]` when t ≥ 16, and leaves a loaded word alone (R66, R69). -/
def expandStep (W : Vector Word 64) (t : Fin 64) : Vector Word 64 :=
  if 16 ≤ t.val then W.set t (expandWord W t) else W

/-- The schedule after steps 0 to n - 1 of R69, in increasing t. -/
def scheduleUpTo (W : Vector Word 64) : Nat → Vector Word 64
  | 0 => W
  | n + 1 => expandStep (scheduleUpTo W n) (index64 n)

/-- `t1` of R74. -/
def roundT1 (r : WorkRegs) (k w : Word) : Word := r.h + bigSigma1 r.e + ch r.e r.f r.g + k + w

/-- `t2` of R74. -/
def roundT2 (r : WorkRegs) : Word := bigSigma0 r.a + maj r.a r.b r.c

/-- One round with constant `k` and schedule word `w` (R74); the assignment is simultaneous. -/
def round (r : WorkRegs) (k w : Word) : WorkRegs :=
  { a := roundT1 r k w + roundT2 r, b := r.a, c := r.b, d := r.c
    e := r.d + roundT1 r k w, f := r.e, g := r.f, h := r.g }

/-- The working registers loaded from a hash state (R66). -/
def loadWork (H : Vector Word 8) : WorkRegs :=
  { a := H[0], b := H[1], c := H[2], d := H[3], e := H[4], f := H[5], g := H[6], h := H[7] }

/-- The working registers after rounds 0 to n - 1, over a whole schedule (R74). -/
def roundsUpTo (W : Vector Word 64) (r : WorkRegs) : Nat → WorkRegs
  | 0 => r
  | n + 1 => round (roundsUpTo W r n) kRom[index64 n] W[index64 n]

/-- Fold-back: each hash-state word plus its working register, modulo 2^32 (R75). -/
def foldBack (H : Vector Word 8) (r : WorkRegs) : Vector Word 8 :=
  #v[H[0] + r.a, H[1] + r.b, H[2] + r.c, H[3] + r.d, H[4] + r.e, H[5] + r.f, H[6] + r.g, H[7] + r.h]

/-- The 64-word schedule of a block (R66, R69): `W[0..15]` loaded, then `W[16..63]` expanded. Every word is written, so
the vector it starts from does not show. -/
def schedule (B : Vector Byte 64) : Vector Word 64 :=
  scheduleUpTo (loadBlock B (Vector.replicate 64 0)) 64

/-- `Compress(Hin, B)` (R65): load, expand all of the schedule, 64 rounds, fold back. -/
def compress (H : Vector Word 8) (B : Vector Byte 64) : Vector Word 8 :=
  foldBack H (roundsUpTo (schedule B) (loadWork H) 64)

end Sys2Proof.Machine
end

