-- ==== Sys2Proof/Machine/Port.lean ====
section
/-! DEFINITION. The host register port: what a host can send to it and what it can answer (spec/20_memory.md R32 to
R43), and the register map (spec/10_state.md R28). -/

namespace Sys2Proof.Machine

/-- The registers of the map of R28. -/
inductive Reg where
  | cmd
  | data
  | status
  | totalLo
  | totalHi
  | digest (i : Fin 8)
  deriving DecidableEq, Repr

/-- The width of a host access: n ∈ {1, 2, 4} bytes (R35, R36). -/
inductive AccessWidth where
  | one
  | two
  | four
  deriving DecidableEq, Repr

/-- The direction of an access, and the word a write carries (R35, R36). -/
inductive AccessOp where
  | read
  | write (v : Word)
  deriving DecidableEq, Repr

/-- One host access. `master` numbers the bus master that issued it: every master may issue every access (R96), and no
effect depends on the number (assumption log 4). -/
structure Access where
  master : Nat
  off : Offset
  width : AccessWidth
  op : AccessOp
  deriving DecidableEq, Repr

/-- The kinds of bus error (R37, R89). -/
inductive BusErrorKind where
  /-- WIDTH: not 4 bytes wide. -/
  | width
  /-- MISALIGNED: the offset is not a multiple of 4. -/
  | misaligned
  /-- READ_WO: a read of the write-only CMD. -/
  | readWo
  /-- WRITE_RO: a write to a read-only register. -/
  | writeRo
  /-- UNMAPPED: no register at the offset. -/
  | unmapped
  deriving DecidableEq, Repr

/-- What the port answers to an access it completes. A bus error is no reply: it is a fault (R37). -/
inductive Reply where
  /-- A read returned this word (R35). -/
  | value (v : Word)
  /-- A write completed (R36); a CMD write completes whether its command was executed, rejected or ignored (R93). -/
  | done
  /-- The access was in progress when reset was asserted: what the host receives is left to the platform (R99, I11). -/
  | platformDefined
  deriving DecidableEq, Repr

/-- An access together with the port's answer to it. -/
structure Completion where
  access : Access
  reply : Reply
  deriving DecidableEq, Repr

/-- What arrives at the block from outside, in arrival order (assumption logs 4 and 7). -/
inductive Event where
  /-- A host access (R42). -/
  | access (a : Access)
  /-- The reset input is asserted (R99); `aborted` is the access in progress at that moment, if there is one. -/
  | reset (aborted : Option Access)
  deriving DecidableEq, Repr

/-- The byte offset of a register (R28). -/
def Reg.offset : Reg → Offset
  | .cmd => 0x00
  | .data => 0x04
  | .status => 0x08
  | .totalLo => 0x0C
  | .totalHi => 0x10
  | .digest i => BitVec.ofNat 8 (0x20 + 4 * i.val)

/-- The register at an offset (R28); none at an offset the map does not list. -/
def regAt (off : Offset) : Option Reg :=
  if off = 0x00 then some .cmd
  else if off = 0x04 then some .data
  else if off = 0x08 then some .status
  else if off = 0x0C then some .totalLo
  else if off = 0x10 then some .totalHi
  else if h : 0x20 ≤ off.toNat ∧ off.toNat ≤ 0x3C ∧ off.toNat % 4 = 0 then
    some (.digest ⟨(off.toNat - 0x20) / 4, by omega⟩)
  else none

/-- The access column of R28: CMD is write-only, every other register is readable. -/
def Reg.readable : Reg → Bool
  | .cmd => false
  | .data | .status | .totalLo | .totalHi | .digest _ => true

/-- The access column of R28: CMD and DATA are writable, every other register is read-only. -/
def Reg.writable : Reg → Bool
  | .cmd | .data => true
  | .status | .totalLo | .totalHi | .digest _ => false

/-- Whether the direction of an access matches the access column of a register (R28, R34). -/
def AccessOp.allowedOn (op : AccessOp) (r : Reg) : Bool :=
  match op with
  | .read => r.readable
  | .write _ => r.writable

/-- The legal accesses of R34: 4 bytes wide, 4-aligned, in a direction the register allows. -/
def Access.legal (a : Access) : Bool :=
  a.width == .four && a.off.toNat % 4 == 0 &&
    match regAt a.off with
    | some r => a.op.allowedOn r
    | none => false

end Sys2Proof.Machine
end

