-- ==== Sys2Proof/Machine/State.lean ====
section
/-! DEFINITION. The state of one SHA256-CORE instance (spec/10_state.md), the reasons a step can stop, and the state
after reset. The ROMs are constants (Machine/Rom.lean). -/

namespace Sys2Proof.Machine

/-- The lifecycle state PHASE (R17). -/
inductive Phase where
  /-- ACCEPTING, encoded 0. -/
  | accepting
  /-- FINALIZED, encoded 1. -/
  | finalized
  deriving DecidableEq, Repr

/-- The cause codes of spec/60_exceptions.md R87. The codes 5..15 are reserved and never produced (assumption log 11). -/
inductive ErrCode where
  /-- NONE, code 0: no error recorded. -/
  | none
  /-- ILLEGAL_COMMAND, code 1. -/
  | illegalCommand
  /-- UPDATE_AFTER_FINALIZE, code 2. -/
  | updateAfterFinalize
  /-- FINALIZE_AFTER_FINALIZE, code 3. -/
  | finalizeAfterFinalize
  /-- PADDING_CHECK, code 4. -/
  | paddingCheck
  deriving DecidableEq, Repr

/-- The compression sequencer SEQ (R23). -/
inductive Seq where
  | idle
  | round
  | fold
  deriving DecidableEq, Repr

/-- The state of one instance: every piece of state of spec/10_state.md section 1 that is not a ROM, and three fields of
the model's own (inbox, reply, freeCtr). -/
structure State where
  /-- The hash state `H[0..7]` (R12), read at DIGEST0..7. -/
  h : Vector Word 8
  /-- The staging buffer `BUF[0..63]` (R13). -/
  buf : Vector Byte 64
  /-- The fill counter FILL (R14), 6 bits. -/
  fill : BitVec 6
  /-- The byte counter TOTAL (R15), 64 bits, wrapping. -/
  total : BitVec 64
  /-- The lifecycle state PHASE (R17). -/
  phase : Phase
  /-- The error flag ERR (R18). -/
  err : Bool
  /-- The cause code ERRCODE (R18). -/
  errCode : ErrCode
  /-- The input data register DATA (R20). -/
  data : Word
  /-- The message schedule `W[0..63]` (R21). -/
  w : Vector Word 64
  /-- The working registers `a..h` (R22). -/
  work : WorkRegs
  /-- The sequencer state SEQ (R23). -/
  seq : Seq
  /-- The round counter t (R23), 7 bits. -/
  t : BitVec 7
  /-- The events that have not been performed yet, in arrival order (R42; the model's own, assumption log 4). -/
  inbox : List Event
  /-- The last access the port completed and its answer (R35, R36; the model's own, assumption log 4). -/
  reply : Option Completion
  /-- How many free values have been drawn (the model's own, assumption log 2). -/
  freeCtr : Nat
  deriving DecidableEq, Repr

/-- Why a step stops with a fault. -/
inductive Fault where
  /-- The host access at `off` was answered by `BusError(off, kind)` (R37). Raised by `memRead` and `memWrite`. SAFE: the
  hardware goes on with its state unchanged, and the model stops, as R37 asks (assumption log 6). -/
  | busError (off : Offset) (kind : BusErrorKind)
  deriving DecidableEq, Repr

/-- Why a step is refused. -/
inductive Refusal where
  /-- The instruction has no meaning in the model. No arm of `exec` raises it: every instruction has its meaning. SAFE. -/
  | notModelled (mnemonic : String)
  deriving DecidableEq, Repr

/-- The outcome of a step of this machine. -/
abbrev StepOutcome := Host.Outcome State Fault Refusal

/-- The machine right after hardware reset (R31, R99). BUF, W and `a..h` have no value there in the spec: they are zero
by DESIGN CHOICE (assumption log 3). -/
def State.reset : State where
  h := ivRom
  buf := Vector.replicate 64 0
  fill := 0
  total := 0
  phase := .accepting
  err := false
  errCode := .none
  data := 0
  w := Vector.replicate 64 0
  work := { a := 0, b := 0, c := 0, d := 0, e := 0, f := 0, g := 0, h := 0 }
  seq := .idle
  t := 0
  inbox := []
  reply := none
  freeCtr := 0

end Sys2Proof.Machine
end

