-- ==== Sys2Proof/Machine/Registers.lean ====
section
/-! DEFINITION. The named updates of State: every write of a register in the model goes through one of these. Their
field lemmas are in Laws/State.lean. No update knows a rule; the rules are in the files that call them. -/

namespace Sys2Proof.Machine.State

/-- Writes the hash state H (R12). -/
def setH (s : State) (h : Vector Word 8) : State := { s with h := h }

/-- Writes the staging buffer BUF and the fill counter FILL (R13, R14). -/
def setBuf (s : State) (buf : Vector Byte 64) (fill : BitVec 6) : State := { s with buf := buf, fill := fill }

/-- Writes the byte counter TOTAL (R15). -/
def setTotal (s : State) (total : BitVec 64) : State := { s with total := total }

/-- Writes the lifecycle state PHASE (R17). -/
def setPhase (s : State) (phase : Phase) : State := { s with phase := phase }

/-- Writes the pair ERR, ERRCODE (R18). -/
def setError (s : State) (err : Bool) (errCode : ErrCode) : State := { s with err := err, errCode := errCode }

/-- Writes the data register DATA (R20). -/
def setData (s : State) (data : Word) : State := { s with data := data }

/-- Writes the schedule W and the working registers `a..h` (R21, R22). -/
def setEngine (s : State) (w : Vector Word 64) (work : WorkRegs) : State := { s with w := w, work := work }

/-- Writes the sequencer state SEQ and the round counter t (R23). -/
def setSeq (s : State) (seq : Seq) (t : BitVec 7) : State := { s with seq := seq, t := t }

/-- Writes the list of pending events. -/
def setInbox (s : State) (inbox : List Event) : State := { s with inbox := inbox }

/-- Writes the last completion. -/
def setReply (s : State) (reply : Option Completion) : State := { s with reply := reply }

/-- Advances the count of free values drawn. -/
def setFreeCtr (s : State) (freeCtr : Nat) : State := { s with freeCtr := freeCtr }

end Sys2Proof.Machine.State
end

