-- ==== Sys2Proof/Machine/Sequencer.lean ====
section
/-! DEFINITION. The round-level sequencer that compresses one block in the machine (spec/42_compression.md R77):
START, 64 ROUND steps, FOLD. All of it runs inside one host access (spec/20_memory.md R43). -/

namespace Sys2Proof.Machine

/-- The schedule index of the round counter. In ROUND the counter is 0..63 (R77); its seventh bit is 0 there. -/
def roundIndex (t : BitVec 7) : Fin 64 := index64 t.toNat

/-- START(X): loads `W[0..15]` and the working registers, t ← 0, SEQ ← ROUND (R77, R66). -/
def seqStart (X : Vector Byte 64) (s : State) : State :=
  (s.setEngine (loadBlock X s.w) (loadWork s.h)).setSeq .round 0

/-- ROUND: computes `W[t]` when t ≥ 16, applies round t, counts, and moves to FOLD when t reaches 64 (R77, R74). -/
def seqRound (s : State) : State :=
  let i := roundIndex s.t
  let w := expandStep s.w i
  (s.setEngine w (round s.work kRom[i] w[i])).setSeq (if s.t + 1 = 64 then .fold else .round) (s.t + 1)

/-- FOLD: folds back into H, t ← 0, SEQ ← IDLE (R77, R75). -/
def seqFold (s : State) : State :=
  (s.setH (foldBack s.h s.work)).setSeq .idle 0

/-- One micro-step of a running sequencer; an idle sequencer does nothing (R77). -/
def seqStep (s : State) : State :=
  match s.seq with
  | .idle => s
  | .round => seqRound s
  | .fold => seqFold s

/-- `n` micro-steps. -/
def seqRun : Nat → State → State
  | 0, s => s
  | n + 1, s => seqRun n (seqStep s)

/-- The free words `n .. n + 63`, as a schedule. -/
def freeSchedule (n : Nat) : Vector Word 64 := Vector.ofFn fun i : Fin 64 => Config.freeWord (n + i.val)

/-- The free words `n .. n + 7`, as working registers. -/
def freeWork (n : Nat) : WorkRegs :=
  { a := Config.freeWord n, b := Config.freeWord (n + 1), c := Config.freeWord (n + 2), d := Config.freeWord (n + 3)
    e := Config.freeWord (n + 4), f := Config.freeWord (n + 5), g := Config.freeWord (n + 6)
    h := Config.freeWord (n + 7) }

/-- After a compression W and `a..h` hold no defined value (R21, R22): they become free values (assumption log 2). -/
def forgetEngine (s : State) : State :=
  (s.setEngine (freeSchedule s.freeCtr) (freeWork (s.freeCtr + 64))).setFreeCtr (s.freeCtr + 72)

/-- `H <- Compress(H, X)` as the hardware does it: START, 64 ROUND steps and one FOLD, 66 micro-steps in all (R77). -/
def compressBlock (X : Vector Byte 64) (s : State) : State :=
  forgetEngine (seqRun 65 (seqStart X s))

end Sys2Proof.Machine
end

