-- ==== Sys2Proof/Machine/Ops.lean ====
section
/-! DEFINITION. The operations the commands share: recording a contract error and leaving the error state
(spec/60_exceptions.md R88, R94), the absorb path of the message buffer manager (spec/41_buffer_manager.md R59) and
hardware reset (spec/70_reset_and_hazards.md R99). -/

namespace Sys2Proof.Machine

/-- `raise ContractError(code)` (R88): the first violation is recorded, and nothing else changes. It is this hardware's
only exception: it transfers no control and saves only ERR and ERRCODE (R93). -/
def contractError (code : ErrCode) (s : State) : State :=
  if s.err = false then s.setError true code else s

/-- Leaving the error state (R94): INIT clears ERR and ERRCODE. -/
def clearError (s : State) : State := s.setError false .none

/-- `BUF[off + j] <- S[j]` for every j with `off + j ≤ 63`; the other bytes stay (R59). -/
def writeBytes (buf : Vector Byte 64) (off : Nat) (S : List Byte) : Vector Byte 64 :=
  Vector.ofFn fun j : Fin 64 => if off ≤ j.val then S.getD (j.val - off) buf[j] else buf[j]

/-- The bytes `BUF[0 .. FILL)`, oldest first (R13). -/
def buffered (s : State) : List Byte := s.buf.toList.take s.fill.toNat

/-- The first 64 bytes of a stream of at least 64 bytes, as a block (R59). -/
def firstBlock (X : List Byte) : Vector Byte 64 := Vector.ofFn fun i : Fin 64 => X.getD i.val 0

/-- `for k in 0 .. n-1: H <- Compress(H, X[64k .. 64k + 64))`: the first n blocks of a stream, in order (R59). -/
def compressStream : Nat → List Byte → State → State
  | 0, _, s => s
  | n + 1, X, s => compressStream n (X.drop 64) (compressBlock (firstBlock X) s)

/-- The bytes `BUF[FILL..63]` hold no defined value after a write of the buffer (R13): they become free values
(assumption log 2). -/
def forgetTail (s : State) : State :=
  (s.setBuf (Vector.ofFn fun j : Fin 64 =>
    if j.val < s.fill.toNat then s.buf[j] else Config.freeByte (s.freeCtr + j.val)) s.fill).setFreeCtr (s.freeCtr + 64)

/-- Case 1 of R59, `FILL + L < 64`: the bytes are appended and no compression occurs. -/
def absorbAppend (S : List Byte) (s : State) : State :=
  s.setBuf (writeBytes s.buf s.fill.toNat S) (BitVec.ofNat 6 (s.fill.toNat + S.length))

/-- Case 2 of R59, `FILL + L ≥ 64`: the whole blocks of the stream `BUF[0 .. FILL) ++ S` are compressed and its trailing
`new_fill` bytes are kept. -/
def absorbBlocks (S : List Byte) (s : State) : State :=
  let n := s.fill.toNat + S.length
  let s' := compressStream (n / 64) (buffered s ++ S) s
  s'.setBuf (writeBytes s'.buf 0 (S.drop (S.length - n % 64))) (BitVec.ofNat 6 (n % 64))

/-- `Absorb(S)` (R59). It does not touch TOTAL and has no phase check (spec/90_conflicts.md C1, C2). An empty S writes
nothing. -/
def absorb (S : List Byte) (s : State) : State :=
  if S = [] then s
  else if s.fill.toNat + S.length < 64 then forgetTail (absorbAppend S s)
  else forgetTail (absorbBlocks S s)

/-- One byte of `AbsorbSerial` (R60). -/
def absorbByte (b : Byte) (s : State) : State :=
  let buf := s.buf.set s.fill.toNat b
  if s.fill.toNat + 1 = 64 then (compressBlock buf s).setBuf buf 0
  else s.setBuf buf (s.fill + 1)

/-- `AbsorbSerial(S)` (R60): the byte-serial form an implementation may take instead of `absorb`. -/
def absorbSerial : List Byte → State → State
  | [], s => s
  | b :: S, s => absorbSerial S (absorbByte b s)

/-- Hardware reset (R99): all state takes its reset value, BUF, W and `a..h` are unspecified (free values, assumption
log 2), and an access in progress is aborted; what its host receives is left to the platform (I11, assumption log 7).
The events still pending stay pending. -/
def resetBlock (aborted : Option Access) (s : State) : State :=
  { State.reset with
    buf := Vector.ofFn fun j : Fin 64 => Config.freeByte (s.freeCtr + j.val)
    w := freeSchedule s.freeCtr
    work := freeWork (s.freeCtr + 64)
    inbox := s.inbox
    reply := aborted.map fun a => { access := a, reply := .platformDefined }
    freeCtr := s.freeCtr + 72 }

end Sys2Proof.Machine
end

