-- ==== Sys2Proof/Machine/Flags.lean ====
section
/-! DEFINITION. The STATUS register and the encodings of its fields (spec/10_state.md R17, R19, R29; spec/60_exceptions.md
R87). The block has no arithmetic flags (R19). -/

namespace Sys2Proof.Machine

/-- PHASE as its bit: 0 = ACCEPTING, 1 = FINALIZED (R17). -/
def Phase.bit : Phase → BitVec 1
  | .accepting => 0
  | .finalized => 1

/-- ERRCODE as its four bits (R87). -/
def ErrCode.bits : ErrCode → BitVec 4
  | .none => 0
  | .illegalCommand => 1
  | .updateAfterFinalize => 2
  | .finalizeAfterFinalize => 3
  | .paddingCheck => 4

/-- ERR as its bit (R18). -/
def errBit (err : Bool) : BitVec 1 := BitVec.ofBool err

/-- `STATUS = (FILL << 8) or (ERRCODE << 4) or (ERR << 1) or PHASE` (R29). -/
def statusWord (s : State) : Word :=
  (s.fill.setWidth 32 <<< 8) ||| (s.errCode.bits.setWidth 32 <<< 4) ||| ((errBit s.err).setWidth 32 <<< 1) |||
    s.phase.bit.setWidth 32

end Sys2Proof.Machine
end

