-- ==== Sys2Proof/Machine/Operands.lean ====
section
/-! DEFINITION. The operands of the commands (spec/30_encoding.md R50): the byte count N and the data bytes. -/

namespace Sys2Proof.Machine

/-- `bytes(N)`: the first N of the lanes `DATA[31:24]`, `DATA[23:16]`, `DATA[15:8]`, `DATA[7:0]` (R50, R38). The lanes
beyond the first N are ignored. -/
def dataBytes (n : BitVec 3) (data : Word) : List Byte := (bytesBe32 data).take n.toNat

end Sys2Proof.Machine
end

