-- ==== Sys2Proof/Machine/Control.lean ====
section
/-! DEFINITION. NOP, INIT and what an illegal word does (spec/40_command_dispatch.md R54 to R57; spec/30_encoding.md R52). -/

namespace Sys2Proof.Machine

/-- `InitOp()` (R57): a fresh engine. BUF, DATA, W and `a..h` are unchanged; SEQ and t are IDLE and 0 after it, as the
INIT column of R31 has them. -/
def initOp (s : State) : State :=
  clearError (((((s.setH ivRom).setBuf s.buf 0).setTotal 0).setPhase .accepting).setSeq .idle 0)

/-- An illegal command word (R52, R54): ignored while ERR = 1, otherwise ILLEGAL_COMMAND is recorded, in either phase. -/
def illegalOp (s : State) : State :=
  if s.err then s else contractError .illegalCommand s

/-- NOP (R56): `skip`, in either phase and whatever ERR is. -/
def execNop (s : State) : StepOutcome := .next s

/-- INIT (R57), in either phase and whatever ERR is. -/
def execInit (s : State) : StepOutcome := .next (initOp s)

end Sys2Proof.Machine
end

