-- ==== Sys2Proof/Machine/Padding.lean ====
section
/-! DEFINITION. The FIPS-180-4 padding generator (spec/43_padding_finalize.md R80). -/

namespace Sys2Proof.Machine

/-- `bits = (T * 8) mod 2^64`, the length field's value (R80). -/
def lengthBits (T : BitVec 64) : BitVec 64 := T <<< 3

/-- `pad_bits`: 512 minus `bits mod 512`, plus 512 when fewer than 65 bits are left (R80). -/
def padBits (T : BitVec 64) : Nat :=
  let p := 512 - (lengthBits T).toNat % 512
  if p < 65 then p + 512 else p

/-- `pad_bytes = pad_bits / 8` (R80). -/
def padBytes (T : BitVec 64) : Nat := padBits T / 8

/-- `Padding(T)` (R80): `pad_bytes` zero bytes, with byte 0 set to 0x80 and the last eight bytes set to the length field. -/
def padding (T : BitVec 64) : List Byte :=
  ((List.replicate (padBytes T) 0).set 0 0x80).take (padBytes T - 8) ++ bytesBe64 (lengthBits T)

end Sys2Proof.Machine
end

