-- ==== Sys2Proof/Machine/Finalize.lean ====
section
/-! DEFINITION. FINALIZE and the digest (spec/43_padding_finalize.md R83, R84; spec/10_state.md R30). -/

namespace Sys2Proof.Machine

/-- The post-padding check (R84): `FILL ≠ 0` records PADDING_CHECK (assumption log 9). -/
def paddingCheck (s : State) : State :=
  if s.fill ≠ 0 then contractError .paddingCheck s else s

/-- FINALIZE: ignored while ERR = 1 (R54); in FINALIZED, FINALIZE_AFTER_FINALIZE; otherwise the padding of TOTAL is
absorbed, the check is made and PHASE becomes FINALIZED (R83). TOTAL keeps the message length (C1). -/
def finalizeOp (s : State) : State :=
  if s.err then s
  else if s.phase = .finalized then contractError .finalizeAfterFinalize s
  else (paddingCheck (absorb (padding s.total) s)).setPhase .finalized

/-- FINALIZE (R83). -/
def execFinalize (s : State) : StepOutcome := .next (finalizeOp s)

/-- The 32 bytes `bytes_be32(DIGEST0) ++ ... ++ bytes_be32(DIGEST7)` (R30, R38). After FINALIZE they are the digest. -/
def digestBytes (s : State) : List Byte :=
  bytesBe32 s.h[0] ++ bytesBe32 s.h[1] ++ bytesBe32 s.h[2] ++ bytesBe32 s.h[3] ++
    bytesBe32 s.h[4] ++ bytesBe32 s.h[5] ++ bytesBe32 s.h[6] ++ bytesBe32 s.h[7]

end Sys2Proof.Machine
end

