-- ==== Sys2Proof/Machine/Update.lean ====
section
/-! DEFINITION. UPDATE N (spec/41_buffer_manager.md R61). -/

namespace Sys2Proof.Machine

/-- UPDATE of N bytes: ignored while ERR = 1 (R54); in FINALIZED, UPDATE_AFTER_FINALIZE even for N = 0; otherwise the
bytes are absorbed and TOTAL grows by N modulo 2^64 (R61). -/
def updateOp (n : BitVec 3) (s : State) : State :=
  if s.err then s
  else if s.phase = .finalized then contractError .updateAfterFinalize s
  else (absorb (dataBytes n s.data) s).setTotal (s.total + n.setWidth 64)

/-- UPDATE 0 (R61). -/
def execUpdate0 (s : State) : StepOutcome := .next (updateOp 0 s)

/-- UPDATE 1 (R61). -/
def execUpdate1 (s : State) : StepOutcome := .next (updateOp 1 s)

/-- UPDATE 2 (R61). -/
def execUpdate2 (s : State) : StepOutcome := .next (updateOp 2 s)

/-- UPDATE 3 (R61). -/
def execUpdate3 (s : State) : StepOutcome := .next (updateOp 3 s)

/-- UPDATE 4 (R61). -/
def execUpdate4 (s : State) : StepOutcome := .next (updateOp 4 s)

end Sys2Proof.Machine
end

