-- ==== Sys2Proof/Machine/Dispatch.lean ====
section
/-! DEFINITION. One arm per command of spec/opcode_table.json (spec/40_command_dispatch.md R54). -/

namespace Sys2Proof.Machine

def exec (i : Instr) (s : State) : Host.Outcome State Fault Refusal :=
  match i with
  | .nop => Sys2Proof.Machine.execNop s
  | .init => Sys2Proof.Machine.execInit s
  | .update0 => Sys2Proof.Machine.execUpdate0 s
  | .update1 => Sys2Proof.Machine.execUpdate1 s
  | .update2 => Sys2Proof.Machine.execUpdate2 s
  | .update3 => Sys2Proof.Machine.execUpdate3 s
  | .update4 => Sys2Proof.Machine.execUpdate4 s
  | .finalize => Sys2Proof.Machine.execFinalize s

end Sys2Proof.Machine
end

