-- ==== Sys2Proof/Machine/HostPort.lean ====
section
/-! DEFINITION. What the register port does with one event (spec/20_memory.md R34 to R43; spec/40_command_dispatch.md R54). -/

namespace Sys2Proof.Machine

/-- `Execute(v)` (R54). NOP and INIT act whatever ERR is, an illegal word and the other commands are ignored while
ERR = 1; those checks stand in the meanings. -/
def execute (v : Word) (s : State) : StepOutcome :=
  match decode v with
  | .ok i => exec i s
  | .error _ => .next (illegalOp s)

/-- The value a readable register shows (R28, R35); none for the write-only CMD. -/
def readReg (r : Reg) (s : State) : Option Word :=
  match r with
  | .cmd => none
  | .data => some s.data
  | .status => some (statusWord s)
  | .totalLo => some (s.total.extractLsb' 0 32)
  | .totalHi => some (s.total.extractLsb' 32 32)
  | .digest i => some s.h[i]

/-- `MemRead(off, n)` (R35). -/
def memRead (off : Offset) (width : AccessWidth) (s : State) : Except BusErrorKind Word :=
  if width ≠ .four then .error .width
  else if off.toNat % 4 ≠ 0 then .error .misaligned
  else
    match regAt off with
    | none => .error .unmapped
    | some r =>
      match readReg r s with
      | none => .error .readWo
      | some v => .ok v

/-- `MemWrite(off, n, v)` (R36). -/
def memWrite (off : Offset) (width : AccessWidth) (v : Word) (s : State) : StepOutcome :=
  if width ≠ .four then .fault (.busError off .width)
  else if off.toNat % 4 ≠ 0 then .fault (.busError off .misaligned)
  else
    match regAt off with
    | none => .fault (.busError off .unmapped)
    | some .cmd => execute v s
    | some .data => .next (s.setData v)
    | some _ => .fault (.busError off .writeRo)

/-- Records that the port completed access `a` with answer `r`. -/
def complete (a : Access) (r : Reply) (s : State) : State := s.setReply (some { access := a, reply := r })

/-- Applies `f` to the next state of an outcome; a fault or a refusal stays. -/
def mapNext (f : State → State) : StepOutcome → StepOutcome
  | .next s => .next (f s)
  | .fault r => .fault r
  | .refused r => .refused r

/-- One host access, performed to completion (R42, R43). -/
def serveAccess (a : Access) (s : State) : StepOutcome :=
  match a.op with
  | .read =>
    match memRead a.off a.width s with
    | .ok v => .next (complete a (.value v) s)
    | .error k => .fault (.busError a.off k)
  | .write v => mapNext (complete a .done) (memWrite a.off a.width v s)

/-- One event. -/
def serve (e : Event) (s : State) : StepOutcome :=
  match e with
  | .access a => serveAccess a s
  | .reset aborted => .next (resetBlock aborted s)

/-- The host access that writes command word `v` to CMD (R47). -/
def commandWrite (master : Nat) (v : Word) : Access :=
  { master := master, off := Reg.offset .cmd, width := .four, op := .write v }

end Sys2Proof.Machine
end

