-- ==== Sys2Proof/Machine/Step.lean ====
section
/-! DEFINITION. One step of the machine: the next event at the port, performed to completion (spec/20_memory.md R42,
R43). With no event the block is idle and keeps all its state (spec/60_exceptions.md R98). -/

namespace Sys2Proof.Machine

/-- One step. -/
def step (s : State) : Host.Outcome State Fault Refusal :=
  match s.inbox with
  | [] => .next s
  | e :: rest => serve e (s.setInbox rest)

/-- `s` with the CMD write of a table row's word as its very next event: the command stream takes the place of an
instruction stream (R27; assumption log 8). -/
def State.withFetchWord (s : State) (nbits w : Nat) : State :=
  s.setInbox (.access (commandWrite 0 (tableWord nbits w)) :: s.inbox)

end Sys2Proof.Machine
end

