-- ==== Sys2Proof/Machine/Platform.lean ====
section
/-! DEFINITION. Several instances on one platform, each with its own register window (spec/60_exceptions.md R97;
spec/20_memory.md R32, R33). BASE and N_INSTANCES are OPEN (R6): here they are data, the bases and the number of the
slots. -/

namespace Sys2Proof.Machine

/-- One instance and the host address BASE of its window (R33). -/
structure Slot where
  base : Nat
  inst : State
  deriving DecidableEq, Repr

/-- A platform: its instances, in any order. Each owns its state (R97). -/
abbrev Platform := List Slot

/-- Every BASE is a multiple of 256, and no two instances share one (R33, R97). -/
abbrev Platform.WellFormed (p : Platform) : Prop :=
  (∀ s ∈ p, s.base % 256 = 0) ∧ (p.map Slot.base).Nodup

/-- A host access by host address. -/
structure HostAccess where
  master : Nat
  addr : Nat
  width : AccessWidth
  op : AccessOp
  deriving DecidableEq, Repr

/-- offset = host address − BASE, for an address inside the window (R32, R33). -/
def offsetIn (base addr : Nat) : Option Offset :=
  if base ≤ addr ∧ addr < base + 256 then some (BitVec.ofNat 8 (addr - base)) else none

/-- The access an instance sees: the same access at a byte offset of its window (R32). -/
def HostAccess.at (a : HostAccess) (off : Offset) : Access :=
  { master := a.master, off := off, width := a.width, op := a.op }

/-- One host access on a platform: it is performed by the instance whose window holds the address, and reaches no
instance when none does (assumption log 10). -/
def platformAccess (a : HostAccess) : Platform → Host.Outcome Platform Fault Refusal
  | [] => .next []
  | s :: rest =>
    match offsetIn s.base a.addr with
    | some off =>
      match serveAccess (a.at off) s.inst with
      | .next t => .next ({ s with inst := t } :: rest)
      | .fault r => .fault r
      | .refused r => .refused r
    | none =>
      match platformAccess a rest with
      | .next rest' => .next (s :: rest')
      | .fault r => .fault r
      | .refused r => .refused r

end Sys2Proof.Machine
end

