-- ==== Sys2Proof/Machine/Script.lean ====
section
/-! DEFINITION. The host-script statements of spec/30_encoding.md R53: what each expands to, how a run of host accesses
behaves, and the reading of a script's text. Statements are shorthand for host accesses; they add no behaviour. -/

namespace Sys2Proof.Machine

/-- The two base statements (R53): every host access a script makes is one of them. -/
inductive BaseStmt where
  /-- `WR reg, imm32`: `MemWrite(offset(reg), 4, imm32)`. -/
  | wr (r : Reg) (v : Word)
  /-- `RD reg`: `MemRead(offset(reg), 4)`. -/
  | rd (r : Reg)
  deriving DecidableEq, Repr

/-- A script statement (R53). Text is a list of ASCII bytes (assumption log 12). -/
inductive Stmt where
  | wr (r : Reg) (v : Word)
  | rd (r : Reg)
  | nop
  | init
  | update (n : Fin 5)
  | finalize
  | push (bs : List Byte)
  | pushstr (text : List Byte)
  | rddigest
  | hash (text : List Byte)
  deriving DecidableEq, Repr

/-- The host access of a base statement, issued by a master (R53). -/
def BaseStmt.access (master : Nat) : BaseStmt → Access
  | .wr r v => { master := master, off := r.offset, width := .four, op := .write v }
  | .rd r => { master := master, off := r.offset, width := .four, op := .read }

/-- The command word of `UPDATE n`: `0x00000002 or (n << 4)` (R53). -/
def updateWord (n : Nat) : Word := 0x00000002 ||| (BitVec.ofNat 32 n <<< 4)

/-- `be32(b0, b1, b2, b3)` of up to four bytes, with absent bytes 0 (R53, PUSH). -/
def pushWord (bs : List Byte) : Word := be32 (bs.getD 0 0) (bs.getD 1 0) (bs.getD 2 0) (bs.getD 3 0)

/-- `PUSH` of 1 to 4 bytes: `WR DATA, be32(...)`, then `UPDATE k` (R53). -/
def pushStmts (bs : List Byte) : List BaseStmt :=
  [.wr .data (pushWord bs), .wr .cmd (updateWord bs.length)]

/-- Successive groups of up to 4 bytes, in order (R53, PUSHSTR). -/
def groupsOf4 : List Byte → List (List Byte)
  | [] => []
  | [a] => [[a]]
  | [a, b] => [[a, b]]
  | [a, b, c] => [[a, b, c]]
  | a :: b :: c :: d :: rest => [a, b, c, d] :: groupsOf4 rest

/-- `PUSHSTR`: a PUSH of each group; an empty text expands to nothing (R53). -/
def pushstrStmts (text : List Byte) : List BaseStmt := (groupsOf4 text).flatMap pushStmts

/-- `RDDIGEST`: `RD DIGEST0` to `RD DIGEST7`, in this order (R53). -/
def rddigestStmts : List BaseStmt :=
  [.rd (.digest 0), .rd (.digest 1), .rd (.digest 2), .rd (.digest 3),
   .rd (.digest 4), .rd (.digest 5), .rd (.digest 6), .rd (.digest 7)]

/-- What a statement expands to (R53); none for a PUSH of no byte or of more than four. -/
def Stmt.expand : Stmt → Option (List BaseStmt)
  | .wr r v => some [.wr r v]
  | .rd r => some [.rd r]
  | .nop => some [.wr .cmd 0x00000000]
  | .init => some [.wr .cmd 0x00000001]
  | .update n => some [.wr .cmd (updateWord n.val)]
  | .finalize => some [.wr .cmd 0x00000003]
  | .push bs => if 1 ≤ bs.length ∧ bs.length ≤ 4 then some (pushStmts bs) else none
  | .pushstr text => some (pushstrStmts text)
  | .rddigest => some rddigestStmts
  | .hash text =>
    some (.wr .cmd 0x00000001 :: (pushstrStmts text ++ .wr .cmd 0x00000003 :: rddigestStmts))

/-- Performs host accesses one after the other, each to completion (R42), and collects the answers in order. -/
def runAccesses : List Access → State → Host.Outcome (State × List Reply) Fault Refusal
  | [], s => .next (s, [])
  | a :: as, s =>
    match serveAccess a s with
    | .next t =>
      match runAccesses as t with
      | .next (u, rs) => .next (u, (t.reply.map Completion.reply).toList ++ rs)
      | .fault r => .fault r
      | .refused r => .refused r
    | .fault r => .fault r
    | .refused r => .refused r

/-- The words the reads among the answers returned, in order: the results of a script's RD statements (R53). -/
def readValues : List Reply → List Word
  | [] => []
  | .value v :: rs => v :: readValues rs
  | .done :: rs => readValues rs
  | .platformDefined :: rs => readValues rs

/-- The result of RDDIGEST, and so of HASH: `bytes_be32` of each word read, concatenated (R53). -/
def digestResult (vs : List Word) : List Byte := vs.flatMap bytesBe32

/-- Runs the expansion of a statement as accesses of one master. -/
def runBase (master : Nat) (bs : List BaseStmt) (s : State) : Host.Outcome (State × List Reply) Fault Refusal :=
  runAccesses (bs.map (BaseStmt.access master)) s

/-! The text of a script: one statement a line, `;` starts a comment, numbers are decimal or `0x` hexadecimal (R53).
What R53 leaves open (blanks, capitals) is in assumption log 12. -/

/-- The parts of a line. -/
inductive Token where
  | word (cs : List Char)
  | comma
  | text (cs : List Char)
  deriving DecidableEq, Repr

/-- Where the reader of a line stands; letters are kept last first. -/
inductive LexMode where
  | gap
  | inWord (cs : List Char)
  | inText (cs : List Char)
  deriving DecidableEq, Repr

/-- The double quote. -/
def quoteChar : Char := Char.ofNat 34

/-- The token a mode ends with: a word in progress is closed. -/
def LexMode.close : LexMode → List Token
  | .inWord cs => [.word cs.reverse]
  | .gap | .inText _ => []

/-- The tokens of a line; none when a text is not closed. A `;` outside a text starts a comment. -/
def lexLine : LexMode → List Char → Option (List Token)
  | .gap, [] => some []
  | .inWord cs, [] => some [.word cs.reverse]
  | .inText _, [] => none
  | .inText cs, c :: rest =>
    if c = quoteChar then (lexLine .gap rest).map (.text cs.reverse :: ·)
    else lexLine (.inText (c :: cs)) rest
  | m, c :: rest =>
    if c = ';' then some m.close
    else if c = ' ' ∨ c = '\t' ∨ c = '\r' then (lexLine .gap rest).map (m.close ++ ·)
    else if c = ',' then (lexLine .gap rest).map (m.close ++ .comma :: ·)
    else if c = quoteChar then (lexLine (.inText []) rest).map (m.close ++ ·)
    else
      match m with
      | .inWord cs => lexLine (.inWord (c :: cs)) rest
      | .gap | .inText _ => lexLine (.inWord [c]) rest

/-- The lines of a text. -/
def splitLines : List Char → List (List Char)
  | [] => [[]]
  | c :: rest =>
    if c = '\n' then [] :: splitLines rest
    else
      match splitLines rest with
      | [] => [[c]]
      | l :: ls => (c :: l) :: ls

/-- The value of a digit in the given base. -/
def digitValue (base : Nat) (c : Char) : Option Nat :=
  let n := c.toNat
  let v := if 48 ≤ n ∧ n ≤ 57 then n - 48
    else if 97 ≤ n ∧ n ≤ 102 then n - 87
    else if 65 ≤ n ∧ n ≤ 70 then n - 55
    else base
  if v < base then some v else none

/-- The value of a run of digits, most significant first. -/
def digitsValue (base : Nat) : Nat → List Char → Option Nat
  | acc, [] => some acc
  | acc, c :: cs =>
    match digitValue base c with
    | some v => digitsValue base (acc * base + v) cs
    | none => none

/-- A number: decimal, or hexadecimal after `0x` (R53). -/
def parseNumber : List Char → Option Nat
  | [] => none
  | ['0', 'x'] => none
  | '0' :: 'x' :: cs => digitsValue 16 0 cs
  | cs => digitsValue 10 0 cs

/-- A number below `bound`. -/
def parseBelow (bound : Nat) (cs : List Char) : Option Nat :=
  match parseNumber cs with
  | some n => if n < bound then some n else none
  | none => none

/-- A register name of R28: CMD, DATA, STATUS, TOTAL_LO, TOTAL_HI, DIGEST0 to DIGEST7. -/
def parseReg : List Char → Option Reg
  | ['C', 'M', 'D'] => some .cmd
  | ['D', 'A', 'T', 'A'] => some .data
  | ['S', 'T', 'A', 'T', 'U', 'S'] => some .status
  | ['T', 'O', 'T', 'A', 'L', '_', 'L', 'O'] => some .totalLo
  | ['T', 'O', 'T', 'A', 'L', '_', 'H', 'I'] => some .totalHi
  | ['D', 'I', 'G', 'E', 'S', 'T', c] =>
    match digitValue 8 c with
    | some i => some (.digest (Fin.ofNat 8 i))
    | none => none
  | _ => none

/-- The bytes of an ASCII text; none when a character is not ASCII. -/
def asciiBytes : List Char → Option (List Byte)
  | [] => some []
  | c :: cs =>
    if c.toNat < 128 then (asciiBytes cs).map (BitVec.ofNat 8 c.toNat :: ·) else none

/-- The bytes of a PUSH: numbers below 256, separated by commas. -/
def parseBytes : List Token → Option (List Byte)
  | [.word cs] => (parseBelow 256 cs).map fun n => [BitVec.ofNat 8 n]
  | .word cs :: .comma :: rest =>
    match parseBelow 256 cs with
    | some n => (parseBytes rest).map (BitVec.ofNat 8 n :: ·)
    | none => none
  | _ => none

/-- `WR reg, imm32`. -/
def parseWr (rs vs : List Char) : Option Stmt :=
  match parseReg rs, parseBelow (2 ^ 32) vs with
  | some r, some v => some (.wr r (BitVec.ofNat 32 v))
  | _, _ => none

/-- The statement of a line that holds one (R53). -/
def parseStmt : List Token → Option Stmt
  | [.word ['W', 'R'], .word r, .comma, .word v] => parseWr r v
  | [.word ['R', 'D'], .word r] => (parseReg r).map .rd
  | [.word ['N', 'O', 'P']] => some .nop
  | [.word ['I', 'N', 'I', 'T']] => some .init
  | [.word ['U', 'P', 'D', 'A', 'T', 'E'], .word n] => (parseBelow 5 n).map fun k => .update (Fin.ofNat 5 k)
  | [.word ['F', 'I', 'N', 'A', 'L', 'I', 'Z', 'E']] => some .finalize
  | .word ['P', 'U', 'S', 'H'] :: bs => (parseBytes bs).map .push
  | [.word ['P', 'U', 'S', 'H', 'S', 'T', 'R'], .text cs] => (asciiBytes cs).map .pushstr
  | [.word ['R', 'D', 'D', 'I', 'G', 'E', 'S', 'T']] => some .rddigest
  | [.word ['H', 'A', 'S', 'H'], .text cs] => (asciiBytes cs).map .hash
  | _ => none

/-- The statements of some lines; none when a line is no statement. A line with no token is skipped. -/
def parseLines : List (List Char) → Option (List Stmt)
  | [] => some []
  | l :: ls =>
    match lexLine .gap l with
    | none => none
    | some [] => parseLines ls
    | some ts =>
      match parseStmt ts with
      | some st => (parseLines ls).map (st :: ·)
      | none => none

/-- A script: one statement a line (R53). -/
def parseScript (text : List Char) : Option (List Stmt) := parseLines (splitLines text)

end Sys2Proof.Machine
end

