-- ==== Sys2Proof/Machine/Window.lean ====
section
/-! DEFINITION. The sixteen-word schedule window an implementation may hold in place of the 64-word schedule
(spec/42_compression.md R79). The machine uses the 64-word reference form; this is the allowed alternative. -/

namespace Sys2Proof.Machine

/-- `Wr[t] <- W[t]` for t < 16: the loaded window of a block (R79). -/
def loadWindow (B : Vector Byte 64) : Vector Word 16 := Vector.ofFn fun t : Fin 16 => blockWord B t

/-- The window after its step for round t: slot `t mod 16` is recomputed when t ≥ 16 (R79). -/
def windowStep (Wr : Vector Word 16) (t : Nat) : Vector Word 16 :=
  if t < 16 then Wr
  else
    Wr.set (t % 16)
      (Wr[t % 16] + sigma0 Wr[(t + 1) % 16] + Wr[(t + 9) % 16] + sigma1 Wr[(t + 14) % 16])
      (Nat.mod_lt t (by decide))

/-- The window after the steps for rounds 0 to n - 1 (R79). -/
def windowUpTo (B : Vector Byte 64) : Nat → Vector Word 16
  | 0 => loadWindow B
  | n + 1 => windowStep (windowUpTo B n) n

/-- The schedule word round t uses: slot `t mod 16` after the step for round t (R79). -/
def windowWord (B : Vector Byte 64) (t : Nat) : Word :=
  (windowUpTo B (t + 1))[t % 16]'(Nat.mod_lt t (by decide))

end Sys2Proof.Machine
end

