-- ==== Sys2Proof/Safety.lean ====
section
/-! DEFINITION. The terms claims about the machine use: the invariant of spec/10_state.md R16, which parts of a state
are defined, and SHA-256 as a function of a whole message. -/

namespace Sys2Proof.Machine

/-- What holds of the state after every complete host access. The first two fields are R16, the third says that the check
of R84 never fails, the fourth is R18, the last two are R23 and R43. -/
structure State.Inv (s : State) : Prop where
  fill_of_total : s.phase = .accepting → s.fill.toNat = s.total.toNat % 64
  fill_finalized : s.phase = .finalized → s.fill = 0
  no_padding_check : s.errCode ≠ .paddingCheck
  err_iff_code : s.err = false ↔ s.errCode = .none
  seq_idle : s.seq = .idle
  t_zero : s.t = 0

/-- Two states that differ at most in what the spec calls `any value`: BUF[FILL..63] (R13), W and `a..h` outside a
compression (R21, R22), and the model's count of free values. -/
structure SameDefined (s u : State) : Prop where
  h : s.h = u.h
  buffered : Machine.buffered s = Machine.buffered u
  fill : s.fill = u.fill
  total : s.total = u.total
  phase : s.phase = u.phase
  err : s.err = u.err
  errCode : s.errCode = u.errCode
  data : s.data = u.data
  seq : s.seq = u.seq
  t : s.t = u.t
  inbox : s.inbox = u.inbox
  reply : s.reply = u.reply

/-- Two outcomes of the same kind, with the same fault or refusal, or with next states that agree where they are
defined. -/
def SameOutcome : StepOutcome → StepOutcome → Prop
  | .next s, .next u => SameDefined s u
  | .fault r, .fault q => r = q
  | .refused r, .refused q => r = q
  | .next _, .fault _ | .next _, .refused _ | .fault _, .next _ | .fault _, .refused _ | .refused _, .next _
  | .refused _, .fault _ => False

/-- The fold of `Compress` over the first n 64-byte blocks of a stream, from a hash state (R59, R63). -/
def hashBlocks : Nat → List Byte → Vector Word 8 → Vector Word 8
  | 0, _, H => H
  | n + 1, X, H => hashBlocks n (X.drop 64) (compress H (firstBlock X))

/-- A message with its padding (R80). -/
def paddedMessage (m : List Byte) : List Byte := m ++ padding (BitVec.ofNat 64 m.length)

/-- SHA-256 of a whole message (R2, R63, R80): the fold of `Compress` from IV over the padded message. It is the SHA-256
digest for messages shorter than 2^61 bytes only (I1). -/
def sha256 (m : List Byte) : Vector Word 8 :=
  hashBlocks ((paddedMessage m).length / 64) (paddedMessage m) ivRom

/-- The accesses that feed spans of 0 to 4 bytes: for each, `WR DATA, d` and `UPDATE n` (R101 step 3). -/
def feedAccesses (master : Nat) (spans : List (Fin 5 × Word)) : List Access :=
  spans.flatMap fun p =>
    [BaseStmt.access master (.wr .data p.2), BaseStmt.access master (.wr .cmd (updateWord p.1.val))]

/-- The message bytes those spans feed, in order (R50). -/
def fedBytes (spans : List (Fin 5 × Word)) : List Byte :=
  spans.flatMap fun p => dataBytes (BitVec.ofNat 3 p.1.val) p.2

/-- The sum of the byte counts of those spans (R63: `M`). -/
def fedCount (spans : List (Fin 5 × Word)) : Nat := (spans.map fun p => p.1.val).sum

/-- The state of `new()`: what reset and INIT leave in the registers a message depends on (R57, R99). -/
structure State.Fresh (s : State) : Prop where
  h : s.h = ivRom
  fill : s.fill = 0
  total : s.total = 0
  phase : s.phase = .accepting
  err : s.err = false
  errCode : s.errCode = .none

end Sys2Proof.Machine
end

