-- ==== Sys2Proof/Certificates/Slice0/Obligations.lean ====
section
/-! DEFINITION. The statements about the machine that are to be proved. Each docstring names the rule of spec/ it
formalises. Free values (assumption log 2) are never constrained: no statement says what they are. -/

open Sys2Proof Sys2Proof.Machine

/-! ### Encoding -/

/-- R51: exactly eight 32-bit words are legal commands, and each decodes as listed. -/
def Obligations.LegalWordsDecode : Prop :=
  ∀ (cmd : Word) (i : Instr),
    decode cmd = .ok i ↔
      (cmd, i) ∈ [(0x00000000#32, Instr.nop), (0x00000001#32, .init), (0x00000002#32, .update0),
        (0x00000012#32, .update1), (0x00000022#32, .update2), (0x00000032#32, .update3),
        (0x00000042#32, .update4), (0x00000003#32, .finalize)]

/-- Decoder and encoder agree (R48 to R51): every instruction is well-formed and decodes from its own word, a word that
decodes is the word its instruction encodes to, and a triple of fields packs to a legal word exactly when it is
well-formed. -/
def Obligations.DecodeEncodeAgree : Prop :=
  (∀ i : Instr, i.WellFormed ∧ decode (encode i) = .ok i) ∧
  (∀ (cmd : Word) (i : Instr), decode cmd = .ok i → encode i = cmd) ∧
  (∀ f : CommandFields, (∃ i, decode f.pack = .ok i) ↔ f.wellFormed = true)

/-- R52: a word with a reserved OP, an UPDATE count above 4, a stray count or a reserved bit changes nothing but the error
status: ILLEGAL_COMMAND is recorded when ERR = 0, and the word is ignored when ERR = 1. -/
def Obligations.IllegalWordRecordsError : Prop :=
  ∀ (cmd : Word) (s : State),
    (4 ≤ (cmd.extractLsb' 0 4).toNat ∨
      (cmd.extractLsb' 0 4 = 2 ∧ 5 ≤ (cmd.extractLsb' 4 3).toNat) ∨
      ((cmd.extractLsb' 0 4 = 0 ∨ cmd.extractLsb' 0 4 = 1 ∨ cmd.extractLsb' 0 4 = 3) ∧ cmd.extractLsb' 4 3 ≠ 0) ∨
      cmd.extractLsb' 7 25 ≠ 0) →
    execute cmd s = .next (if s.err then s else { s with err := true, errCode := .illegalCommand })

/-- Some words of spec/95_test_vectors.md V33, written out from the fields of R48. -/
def Obligations.SampleWordsDecode : Prop :=
  decode 0x00000000 = .ok .nop ∧ decode 0x00000001 = .ok .init ∧ decode 0x00000002 = .ok .update0 ∧
  decode 0x00000042 = .ok .update4 ∧ decode 0x00000003 = .ok .finalize ∧
  decode 0x00000052 = .error .updateCount ∧ decode 0x00000010 = .error .strayCount ∧
  decode 0x0000000f = .error .reservedOp ∧ decode 0x80000001 = .error .reservedBits

/-! ### The step and the host port -/

/-- A step whose next event writes a legal command word to CMD is that command's `exec`, with the event taken off the
inbox and the access answered (R27, R36, R43, R54). The same for a word placed by `withFetchWord`. -/
def Obligations.StepRunsDecodedCommand : Prop :=
  (∀ (s : State) (m : Nat) (v : Word) (rest : List Event) (i : Instr),
    s.inbox = .access (commandWrite m v) :: rest → decode v = .ok i →
    step s = mapNext (complete (commandWrite m v) .done) (exec i (s.setInbox rest))) ∧
  (∀ (s : State) (nbits w : Nat) (i : Instr),
    decodeTableWord nbits w = some i →
    step (s.withFetchWord nbits w) = mapNext (complete (commandWrite 0 (tableWord nbits w)) .done) (exec i s))

/-- R42, R98: a step takes exactly the oldest event, whatever it does with it, and an idle block keeps all its state. -/
def Obligations.StepTakesOldestEvent : Prop :=
  (∀ s t : State, step s = .next t → t.inbox = s.inbox.tail) ∧
  (∀ s : State, s.inbox = [] → step s = .next s)

/-- R34, R37: an access completes exactly when it is legal, every other access is answered by a bus error at its own
offset, and a reset is never refused. So no step of the machine stops for any other reason. -/
def Obligations.StepStopsOnlyOnBusError : Prop :=
  ∀ s : State,
    ((∃ t, step s = .next t) ↔ ∀ a, s.inbox.head? = some (.access a) → a.legal = true) ∧
    (∀ a, s.inbox.head? = some (.access a) → a.legal = false →
      ∃ k, step s = .fault (.busError a.off k))

/-- R35: what a host read returns at every offset and width, the first applicable bus error first. -/
def Obligations.HostReadResult : Prop :=
  ∀ (off : Offset) (width : AccessWidth) (s : State),
    memRead off width s =
      if width ≠ .four then .error .width
      else if off.toNat % 4 ≠ 0 then .error .misaligned
      else if off = 0x00 then .error .readWo
      else if off = 0x04 then .ok s.data
      else if off = 0x08 then .ok (statusWord s)
      else if off = 0x0C then .ok (s.total.extractLsb' 0 32)
      else if off = 0x10 then .ok (s.total.extractLsb' 32 32)
      else if h : 0x20 ≤ off.toNat ∧ off.toNat ≤ 0x3C then .ok (s.h[(off.toNat - 0x20) / 4]'(by omega))
      else .error .unmapped

/-- R36: what a host write does at every offset and width, the first applicable bus error first. -/
def Obligations.HostWriteResult : Prop :=
  ∀ (off : Offset) (width : AccessWidth) (v : Word) (s : State),
    memWrite off width v s =
      if width ≠ .four then .fault (.busError off .width)
      else if off.toNat % 4 ≠ 0 then .fault (.busError off .misaligned)
      else if off = 0x00 then execute v s
      else if off = 0x04 then .next { s with data := v }
      else if off = 0x08 ∨ off = 0x0C ∨ off = 0x10 then .fault (.busError off .writeRo)
      else if 0x20 ≤ off.toNat ∧ off.toNat ≤ 0x3C then .fault (.busError off .writeRo)
      else .fault (.busError off .unmapped)

/-- R34, R40: a step that performs a read changes no state of the block: only the model's record of pending events and of
the last answer. -/
def Obligations.ReadHasNoSideEffect : Prop :=
  ∀ (s t : State) (a : Access) (rest : List Event),
    s.inbox = .access a :: rest → a.op = .read → step s = .next t →
    ∃ v, memRead a.off a.width s = .ok v ∧
      t = { s with inbox := rest, reply := some { access := a, reply := .value v } }

/-- R93: a write of any word to CMD completes normally, whether its command is executed, rejected or ignored. -/
def Obligations.CommandWriteAlwaysCompletes : Prop :=
  ∀ (s : State) (m : Nat) (v : Word) (rest : List Event),
    s.inbox = .access (commandWrite m v) :: rest →
    ∃ t, step s = .next t ∧ t.reply = some { access := commandWrite m v, reply := .done }

/-- R29: the fields of STATUS, with its reserved bits reading 0. -/
def Obligations.StatusFields : Prop :=
  ∀ s : State,
    (statusWord s).getLsbD 0 = (s.phase == .finalized) ∧
    (statusWord s).getLsbD 1 = s.err ∧
    (statusWord s).extractLsb' 2 2 = 0 ∧
    (statusWord s).extractLsb' 4 4 =
      (match s.errCode with
        | .none => 0
        | .illegalCommand => 1
        | .updateAfterFinalize => 2
        | .finalizeAfterFinalize => 3
        | .paddingCheck => 4) ∧
    (statusWord s).extractLsb' 8 6 = s.fill ∧
    (statusWord s).extractLsb' 14 18 = 0

/-- R30, R38: DIGESTi reads `H[i]` in any state, and byte j of the 32 digest bytes is
`H[j div 4][31 - 8 (j mod 4) : 24 - 8 (j mod 4)]`. -/
def Obligations.DigestBytesBigEndian : Prop :=
  ∀ s : State,
    (∀ i : Fin 8, memRead (BitVec.ofNat 8 (0x20 + 4 * i.val)) .four s = .ok s.h[i]) ∧
    (digestBytes s).length = 32 ∧
    ∀ j : Fin 32, (digestBytes s)[j.val]? = some ((s.h[j.val / 4]'(by omega)).extractLsb' (24 - 8 * (j.val % 4)) 8)

/-- R9: `be32` is `b0·2^24 + b1·2^16 + b2·2^8 + b3`; `bytes_be32` and `bytes_be64` write the most significant byte
first. -/
def Obligations.BytesAreBigEndian : Prop :=
  (∀ b0 b1 b2 b3 : Byte,
    (be32 b0 b1 b2 b3).toNat = b0.toNat * 2 ^ 24 + b1.toNat * 2 ^ 16 + b2.toNat * 2 ^ 8 + b3.toNat ∧
    bytesBe32 (be32 b0 b1 b2 b3) = [b0, b1, b2, b3]) ∧
  (∀ w : Word, ∃ b0 b1 b2 b3 : Byte, bytesBe32 w = [b0, b1, b2, b3] ∧ be32 b0 b1 b2 b3 = w) ∧
  (∀ v : BitVec 64, (bytesBe64 v).length = 8 ∧
    ∀ j : Fin 8, (bytesBe64 v)[j.val]? = some (v.extractLsb' (56 - 8 * j.val) 8))

/-! ### Reset -/

/-- R31: the reset values the spec gives. BUF, W and `a..h` have none there (their zeros are the model's choice,
assumption log 3), and this says nothing about them. -/
def Obligations.ResetStateValues : Prop :=
  State.reset.h = #v[0x6a09e667, 0xbb67ae85, 0x3c6ef372, 0xa54ff53a, 0x510e527f, 0x9b05688c, 0x1f83d9ab, 0x5be0cd19] ∧
  State.reset.fill = 0 ∧ State.reset.total = 0 ∧ State.reset.phase = .accepting ∧ State.reset.err = false ∧
  State.reset.errCode = .none ∧ State.reset.data = 0 ∧ State.reset.seq = .idle ∧ State.reset.t = 0

/-- R99: an assertion of the reset input, alone or while an access is in progress, puts every piece of state the spec
gives a reset value at that value, from any state. -/
def Obligations.HardwareResetRestoresState : Prop :=
  ∀ (s : State) (aborted : Option Access) (rest : List Event),
    s.inbox = .reset aborted :: rest →
    ∃ t, step s = .next t ∧ t.h = ivRom ∧ t.fill = 0 ∧ t.total = 0 ∧ t.phase = .accepting ∧ t.err = false ∧
      t.errCode = .none ∧ t.data = 0 ∧ t.seq = .idle ∧ t.t = 0

/-! ### NOP and INIT -/

/-- R56: NOP changes nothing, in either phase and whatever ERR is, and its word 0x00000000 does the same at CMD. -/
def Obligations.NopHasNoEffect : Prop :=
  ∀ s : State, exec .nop s = .next s ∧ execute 0x00000000 s = .next s

/-- R57 (and the INIT column of R31): INIT leaves the state of `new()`, in either phase and whatever ERR is, with BUF,
DATA, W and `a..h` unchanged; and its word 0x00000001 does the same at CMD. -/
def Obligations.InitGivesFreshEngine : Prop :=
  ∀ s : State, ∃ t, exec .init s = .next t ∧ execute 0x00000001 s = .next t ∧
    t.h = ivRom ∧ t.fill = 0 ∧ t.total = 0 ∧ t.phase = .accepting ∧ t.err = false ∧ t.errCode = .none ∧
    t.seq = .idle ∧ t.t = 0 ∧
    t.buf = s.buf ∧ t.data = s.data ∧ t.w = s.w ∧ t.work = s.work ∧ t.inbox = s.inbox ∧ t.reply = s.reply

/-! ### UPDATE -/

/-- R61: UPDATE 0 in ACCEPTING changes nothing. -/
def Obligations.UpdateZeroChangesNothing : Prop :=
  ∀ s : State, s.err = false → s.phase = .accepting → exec .update0 s = .next s

/-- R61, R59 case 1: when `FILL + N < 64`, UPDATE N appends the first N bytes of DATA to the buffer, in lane order, and
adds N to TOTAL. No compression occurs: H, W, `a..h` and the sequencer are unchanged, and so is every other register. -/
def Obligations.UpdateAppendsBytes : Prop :=
  ∀ (s : State) (i : Instr) (n : Nat),
    (i, n) ∈ [(Instr.update0, 0), (.update1, 1), (.update2, 2), (.update3, 3), (.update4, 4)] →
    s.err = false → s.phase = .accepting → s.fill.toNat + n < 64 →
    ∃ t, exec i s = .next t ∧
      buffered t = buffered s ++
        [s.data.extractLsb' 24 8, s.data.extractLsb' 16 8, s.data.extractLsb' 8 8, s.data.extractLsb' 0 8].take n ∧
      t.fill.toNat = s.fill.toNat + n ∧ t.total = s.total + BitVec.ofNat 64 n ∧
      t.h = s.h ∧ t.w = s.w ∧ t.work = s.work ∧ t.seq = s.seq ∧ t.t = s.t ∧
      t.phase = s.phase ∧ t.err = s.err ∧ t.errCode = s.errCode ∧ t.data = s.data ∧
      t.inbox = s.inbox ∧ t.reply = s.reply

/-- R61, R59 case 2, R64: when `FILL + N ≥ 64`, UPDATE N compresses exactly one block, the first 64 bytes of
`BUF[0..FILL) ++ S`, keeps the rest of S, and adds N to TOTAL. PHASE, ERR, ERRCODE and DATA are unchanged. -/
def Obligations.UpdateCompressesOneBlock : Prop :=
  ∀ (s : State) (i : Instr) (n : Nat) (S : List Byte),
    (i, n) ∈ [(Instr.update1, 1), (.update2, 2), (.update3, 3), (.update4, 4)] →
    S = [s.data.extractLsb' 24 8, s.data.extractLsb' 16 8, s.data.extractLsb' 8 8, s.data.extractLsb' 0 8].take n →
    s.err = false → s.phase = .accepting → 64 ≤ s.fill.toNat + n →
    ∃ t, exec i s = .next t ∧
      t.h = compress s.h (firstBlock (buffered s ++ S)) ∧
      t.fill.toNat = s.fill.toNat + n - 64 ∧
      buffered t = S.drop (64 - s.fill.toNat) ∧
      t.total = s.total + BitVec.ofNat 64 n ∧
      t.seq = .idle ∧ t.t = 0 ∧ t.phase = s.phase ∧ t.err = s.err ∧ t.errCode = s.errCode ∧ t.data = s.data ∧
      t.inbox = s.inbox ∧ t.reply = s.reply

/-! ### FINALIZE -/

/-- R83, R86: FINALIZE of a message in progress, in a state with `FILL = TOTAL mod 64` (which every step keeps), absorbs
the padding, one block when `FILL ≤ 55` and two otherwise, and closes the message. TOTAL keeps the message length, and
DATA, ERR and ERRCODE are unchanged. -/
def Obligations.FinalizeClosesMessage : Prop :=
  ∀ s : State, s.err = false → s.phase = .accepting → s.fill.toNat = s.total.toNat % 64 →
    ∃ t, exec .finalize s = .next t ∧
      t.h = hashBlocks (if s.fill.toNat ≤ 55 then 1 else 2) (buffered s ++ padding s.total) s.h ∧
      t.fill = 0 ∧ t.phase = .finalized ∧ t.total = s.total ∧
      t.err = s.err ∧ t.errCode = s.errCode ∧ t.data = s.data ∧ t.seq = .idle ∧ t.t = 0 ∧
      t.inbox = s.inbox ∧ t.reply = s.reply

/-- R84: the post-padding check. FINALIZE always sets PHASE to FINALIZED; it records PADDING_CHECK exactly in the states
with `FILL ≠ TOTAL mod 64`, which no run reaches. -/
def Obligations.PaddingCheckFailsOnlyOffInvariant : Prop :=
  ∀ s : State, s.err = false → s.phase = .accepting →
    ∃ t, exec .finalize s = .next t ∧ t.phase = .finalized ∧
      (s.fill.toNat = s.total.toNat % 64 → t.fill = 0 ∧ t.err = false ∧ t.errCode = s.errCode) ∧
      (s.fill.toNat ≠ s.total.toNat % 64 → t.fill ≠ 0 ∧ t.err = true ∧ t.errCode = .paddingCheck)

/-- R81: the padding length depends only on `f = T mod 64`, and closes the message in one or two blocks. -/
def Obligations.PaddingLength : Prop :=
  ∀ T : BitVec 64,
    (padding T).length = (if T.toNat % 64 ≤ 55 then 64 - T.toNat % 64 else 128 - T.toNat % 64) ∧
    (T.toNat % 64 + (padding T).length = 64 ∨ T.toNat % 64 + (padding T).length = 128)

/-- R82: for every message length M the padded length is a positive multiple of 64, and its last eight bytes are
`bytes_be64((8·M) mod 2^64)`. -/
def Obligations.PaddedLengthAndTail : Prop :=
  ∀ M : Nat,
    0 < M + (padding (BitVec.ofNat 64 M)).length ∧
    (M + (padding (BitVec.ofNat 64 M)).length) % 64 = 0 ∧
    (padding (BitVec.ofNat 64 M)).drop ((padding (BitVec.ofNat 64 M)).length - 8) =
      bytesBe64 (BitVec.ofNat 64 (8 * M))

/-- R80: with `bits = (T·8) mod 2^64`, the padding is `pad_bits / 8` bytes long, byte 0 is 0x80, every byte between it and
the length field is 0, and the last eight bytes are `bytes_be64(bits)`. -/
def Obligations.PaddingContents : Prop :=
  ∀ (T : BitVec 64) (bits padBits : Nat),
    bits = T.toNat * 8 % 2 ^ 64 →
    padBits = (if 512 - bits % 512 < 65 then 512 - bits % 512 + 512 else 512 - bits % 512) →
    (padding T).length = padBits / 8 ∧
    (padding T)[0]? = some 0x80 ∧
    (∀ j : Nat, 0 < j → j + 8 < (padding T).length → (padding T)[j]? = some 0x00) ∧
    (padding T).drop ((padding T).length - 8) = bytesBe64 (BitVec.ofNat 64 bits)

/-! ### Errors and the lifecycle -/

/-- R54, R88: while ERR = 1 every command word except NOP and INIT is ignored: no state changes and the first code stays. -/
def Obligations.CommandsIgnoredWhileError : Prop :=
  ∀ (s : State) (cmd : Word), s.err = true → cmd ≠ 0x00000000 → cmd ≠ 0x00000001 → execute cmd s = .next s

/-- R88: recording a contract error, for every code: the pair ERR, ERRCODE is written only when ERR was 0, and nothing
else is. -/
def Obligations.FirstContractErrorRecorded : Prop :=
  ∀ (code : ErrCode) (s : State),
    (s.err = false → contractError code s = { s with err := true, errCode := code }) ∧
    (s.err = true → contractError code s = s)

/-- R85: after FINALIZE a second FINALIZE and any UPDATE, UPDATE 0 included, are rejected: each records its error and leaves
everything else, the digest with it; and only INIT or reset leads back to ACCEPTING. -/
def Obligations.FinalizedEngineIsSpent : Prop :=
  (∀ (s : State) (i : Instr), s.err = false → s.phase = .finalized →
    i ∈ [Instr.update0, .update1, .update2, .update3, .update4] →
    exec i s = .next { s with err := true, errCode := .updateAfterFinalize }) ∧
  (∀ s : State, s.err = false → s.phase = .finalized →
    exec .finalize s = .next { s with err := true, errCode := .finalizeAfterFinalize }) ∧
  (∀ s t : State, step s = .next t → s.phase = .finalized → t.phase = .accepting →
    (∃ aborted, s.inbox.head? = some (.reset aborted)) ∨
    (∃ m, s.inbox.head? = some (.access (commandWrite m 0x00000001))))

/-- R18, R94: once ERR is set, only INIT and reset clear it or change the code; and only a CMD write sets it. -/
def Obligations.ErrorIsSticky : Prop :=
  ∀ s t : State, step s = .next t →
    (s.err = true →
      (t.err = true ∧ t.errCode = s.errCode) ∨
      (∃ aborted, s.inbox.head? = some (.reset aborted)) ∨
      (∃ m, s.inbox.head? = some (.access (commandWrite m 0x00000001)))) ∧
    (s.err = false → t.err = true → ∃ m v, s.inbox.head? = some (.access (commandWrite m v)))

/-- R12: what can change the hash state H in one step: reset, INIT, FINALIZE of a message in progress, and an UPDATE whose
bytes complete a block. So after FINALIZE, and while an error is recorded, H is stable. -/
def Obligations.HashStateWriters : Prop :=
  ∀ s t : State, step s = .next t → t.h ≠ s.h →
    (∃ aborted, s.inbox.head? = some (.reset aborted)) ∨
    (∃ m, s.inbox.head? = some (.access (commandWrite m 0x00000001))) ∨
    (s.err = false ∧ s.phase = .accepting ∧
      ((∃ m, s.inbox.head? = some (.access (commandWrite m 0x00000003))) ∨
        ∃ m n, n ≤ 4 ∧ 64 ≤ s.fill.toNat + n ∧
          s.inbox.head? = some (.access (commandWrite m (updateWord n)))))

/-- R17: FINALIZE sets PHASE, INIT and reset clear it, and no other event writes it. -/
def Obligations.PhaseWriters : Prop :=
  ∀ s t : State, step s = .next t → t.phase ≠ s.phase →
    (t.phase = .finalized ∧ s.err = false ∧
      ∃ m, s.inbox.head? = some (.access (commandWrite m 0x00000003))) ∨
    (t.phase = .accepting ∧
      ((∃ aborted, s.inbox.head? = some (.reset aborted)) ∨
        ∃ m, s.inbox.head? = some (.access (commandWrite m 0x00000001))))

/-- R15: TOTAL is written only by UPDATE, which adds its byte count modulo 2^64, and cleared only by INIT and reset;
FINALIZE does not add the padding bytes. -/
def Obligations.TotalWriters : Prop :=
  ∀ s t : State, step s = .next t → t.total ≠ s.total →
    (t.total = 0 ∧
      ((∃ aborted, s.inbox.head? = some (.reset aborted)) ∨
        ∃ m, s.inbox.head? = some (.access (commandWrite m 0x00000001)))) ∨
    (s.err = false ∧ s.phase = .accepting ∧
      ∃ m n, n ≤ 4 ∧ s.inbox.head? = some (.access (commandWrite m (updateWord n))) ∧
        t.total.toNat = (s.total.toNat + n) % 2 ^ 64)

/-- R20: DATA is written only by a host write to offset 0x04, which stores its word, and cleared by reset; no command
writes it. -/
def Obligations.DataWriters : Prop :=
  ∀ s t : State, step s = .next t → t.data ≠ s.data →
    (t.data = 0 ∧ ∃ aborted, s.inbox.head? = some (.reset aborted)) ∨
    (∃ m, s.inbox.head? = some (.access { master := m, off := 0x04, width := .four, op := .write t.data }))

/-! ### The compression engine -/

/-- R8: `rotr` rotates and `>>` shifts in zeros, bit by bit. -/
def Obligations.RotrAndShrBits : Prop :=
  ∀ (x : Word) (n i : Nat), 0 < n → n < 32 → i < 32 →
    (rotr x n).getLsbD i = x.getLsbD ((i + n) % 32) ∧
    (shr x n).getLsbD i = (decide (i + n ≤ 31) && x.getLsbD (i + n))

/-- R72, R73: each bit of e selects the bit of f or of g, and each bit of Maj is the majority of its three. -/
def Obligations.ChooseAndMajorityBits : Prop :=
  ∀ (x y z : Word) (i : Nat), i < 32 →
    (ch x y z).getLsbD i = (if x.getLsbD i then y.getLsbD i else z.getLsbD i) ∧
    (maj x y z).getLsbD i = decide (2 ≤ (x.getLsbD i).toNat + (y.getLsbD i).toNat + (z.getLsbD i).toNat)

/-- R67, R68, R70, R71: the four sigma functions bit by bit, as the exclusive or of the rotated bits and, in the two small
ones, of the bit the logical shift brings in. -/
def Obligations.SigmasRotate : Prop :=
  ∀ (x : Word) (i : Nat), i < 32 →
    (sigma0 x).getLsbD i =
      ((x.getLsbD ((i + 7) % 32) ^^ x.getLsbD ((i + 18) % 32)) ^^ (decide (i + 3 ≤ 31) && x.getLsbD (i + 3))) ∧
    (sigma1 x).getLsbD i =
      ((x.getLsbD ((i + 17) % 32) ^^ x.getLsbD ((i + 19) % 32)) ^^ (decide (i + 10 ≤ 31) && x.getLsbD (i + 10))) ∧
    (bigSigma1 x).getLsbD i =
      ((x.getLsbD ((i + 6) % 32) ^^ x.getLsbD ((i + 11) % 32)) ^^ x.getLsbD ((i + 25) % 32)) ∧
    (bigSigma0 x).getLsbD i =
      ((x.getLsbD ((i + 2) % 32) ^^ x.getLsbD ((i + 13) % 32)) ^^ x.getLsbD ((i + 22) % 32))

/-- R74: round i for i in 0..63, with `K[i]`, `W[i]`, `t1` and `t2` written out; only a and e receive new values, the other
six registers shift. -/
def Obligations.RoundMovesRegisters : Prop :=
  ∀ (W : Vector Word 64) (start : WorkRegs) (i : Nat) (hi : i < 64),
    let r := roundsUpTo W start i
    let t1 := r.h + bigSigma1 r.e + ch r.e r.f r.g + kRom[i] + W[i]
    let t2 := bigSigma0 r.a + maj r.a r.b r.c
    roundsUpTo W start (i + 1) =
      { a := t1 + t2, b := r.a, c := r.b, d := r.c, e := r.d + t1, f := r.e, g := r.f, h := r.g }

/-- R66, R69: the schedule of a block is its sixteen big-endian words followed by the recurrence for t in 16..63. -/
def Obligations.ScheduleRecurrence : Prop :=
  ∀ B : Vector Byte 64,
    (∀ t : Nat, (h : t < 16) →
      (schedule B)[t] = be32 B[4 * t] B[4 * t + 1] B[4 * t + 2] B[4 * t + 3]) ∧
    (∀ t : Nat, (h : 16 ≤ t) → (h' : t < 64) →
      (schedule B)[t] =
        (schedule B)[t - 16] + sigma0 (schedule B)[t - 15] + (schedule B)[t - 7] + sigma1 (schedule B)[t - 2])

/-- R77, R78: the sequencer, from START through k of its 64 rounds, holds the schedule words and the working registers of
the all-at-once form, with H untouched; and after FOLD, H is `Compress(Hin, X)` and SEQ is IDLE. -/
def Obligations.SequencerComputesCompress : Prop :=
  ∀ (X : Vector Byte 64) (s : State),
    (∀ k : Nat, k ≤ 64 →
      (seqRun k (seqStart X s)).work = roundsUpTo (schedule X) (loadWork s.h) k ∧
      (∀ j : Nat, (h : j < 64) → j < 16 ∨ j < k → (seqRun k (seqStart X s)).w[j] = (schedule X)[j]) ∧
      (seqRun k (seqStart X s)).h = s.h ∧
      (seqRun k (seqStart X s)).t.toNat = k ∧
      (seqRun k (seqStart X s)).seq = (if k = 64 then .fold else .round)) ∧
    (seqRun 65 (seqStart X s)).h = compress s.h X ∧ (seqRun 65 (seqStart X s)).seq = .idle ∧
    (compressBlock X s).h = compress s.h X

/-- R79: the sixteen-word window gives the schedule word of every round. -/
def Obligations.WindowGivesSchedule : Prop :=
  ∀ (B : Vector Byte 64) (t : Nat) (h : t < 64), windowWord B t = (schedule B)[t]

/-- The evidence of R24 and R25: each IV word is `floor(sqrt(p)·2^32) mod 2^32` for the first eight primes, and each K word is
`floor(cbrt(p)·2^32) mod 2^32` for the first 64 primes. -/
def Obligations.RomsFromPrimeRoots : Prop :=
  (∀ i : Fin 8, ∃ p r : Nat, [2, 3, 5, 7, 11, 13, 17, 19][i.val]? = some p ∧
    r ^ 2 ≤ p * 2 ^ 64 ∧ p * 2 ^ 64 < (r + 1) ^ 2 ∧ ivRom[i].toNat = r % 2 ^ 32) ∧
  (∀ i : Fin 64, ∃ p r : Nat, (((List.range 312).filter fun n => decide (Nat.Prime n))[i.val]? = some p) ∧
    r ^ 3 ≤ p * 2 ^ 96 ∧ p * 2 ^ 96 < (r + 1) ^ 3 ∧ kRom[i].toNat = r % 2 ^ 32)

/-! ### The message buffer manager -/

/-- R59: Absorb of any sequence, of any length, from any fill level: FILL, the buffered suffix of the stream, and H as the
fold of Compress over its whole blocks. -/
def Obligations.AbsorbFoldsStream : Prop :=
  ∀ (S : List Byte) (s : State),
    (absorb S s).fill.toNat = (s.fill.toNat + S.length) % 64 ∧
    buffered (absorb S s) = (buffered s ++ S).drop ((s.fill.toNat + S.length) / 64 * 64) ∧
    (absorb S s).h = hashBlocks ((s.fill.toNat + S.length) / 64) (buffered s ++ S) s.h

/-- R60: the byte-serial procedure leaves `BUF[0..FILL)`, FILL and H exactly as Absorb does, for every starting state and
every S. -/
def Obligations.AbsorbSerialAgrees : Prop :=
  ∀ (S : List Byte) (s : State),
    buffered (absorbSerial S s) = buffered (absorb S s) ∧ (absorbSerial S s).fill = (absorb S s).fill ∧
    (absorbSerial S s).h = (absorb S s).h

/-- R62: absorbing two sequences one after the other leaves what absorbing their concatenation leaves; and two runs of
`WR DATA` / `UPDATE n` pairs that feed the same bytes, in whatever split, leave the same H, FILL, TOTAL and buffered bytes,
and so the same digest after FINALIZE. -/
def Obligations.StreamingEquivalence : Prop :=
  (∀ (S1 S2 : List Byte) (s : State),
    buffered (absorb S2 (absorb S1 s)) = buffered (absorb (S1 ++ S2) s) ∧
    (absorb S2 (absorb S1 s)).fill = (absorb (S1 ++ S2) s).fill ∧
    (absorb S2 (absorb S1 s)).h = (absorb (S1 ++ S2) s).h) ∧
  (∀ (s : State) (m : Nat) (spans spans' : List (Fin 5 × Word)),
    s.err = false → s.phase = .accepting → fedBytes spans = fedBytes spans' →
    ∃ t t' rs rs', runAccesses (feedAccesses m spans) s = .next (t, rs) ∧
      runAccesses (feedAccesses m spans') s = .next (t', rs') ∧
      t.h = t'.h ∧ t.fill = t'.fill ∧ t.total = t'.total ∧ buffered t = buffered t' ∧
      ∃ d d', exec .finalize t = .next d ∧ exec .finalize t' = .next d' ∧ d.phase = .finalized ∧ d'.phase = .finalized ∧
        d.h = d'.h)

/-- R63: reset and INIT leave a fresh engine, and after them and UPDATE commands whose counts sum to M:
`TOTAL = M mod 2^64`, `FILL = M mod 64`, the buffer holds the last FILL message bytes, and H is the fold of Compress from IV
over the first `M / 64` blocks. -/
def Obligations.BufferAccounting : Prop :=
  State.reset.Fresh ∧ (∀ s : State, ∃ t, exec .init s = .next t ∧ t.Fresh) ∧
  ∀ (s : State) (m : Nat) (spans : List (Fin 5 × Word)), s.Fresh →
    ∃ t rs, runAccesses (feedAccesses m spans) s = .next (t, rs) ∧
      t.total.toNat = fedCount spans % 2 ^ 64 ∧ t.fill.toNat = fedCount spans % 64 ∧
      buffered t = (fedBytes spans).drop ((fedBytes spans).length - t.fill.toNat) ∧
      t.h = hashBlocks (fedCount spans / 64) (fedBytes spans) ivRom ∧
      t.phase = .accepting ∧ t.err = false

/-- R63, R83, R105: from a fresh engine, every message of fewer than 2^61 bytes, fed in any split of spans of 0 to 4 bytes and
closed by FINALIZE, leaves its SHA-256 digest in DIGEST0..7, with PHASE = 1, ERR = 0 and TOTAL = M. -/
def Obligations.DigestOfEveryMessage : Prop :=
  ∀ (s : State) (m : Nat) (spans : List (Fin 5 × Word)), s.Fresh → fedCount spans < 2 ^ 61 →
    ∃ t rs, runAccesses (feedAccesses m spans ++ [commandWrite m 0x00000003]) s = .next (t, rs) ∧
      t.h = sha256 (fedBytes spans) ∧ statusWord t = 0x00000001 ∧ t.total.toNat = fedCount spans

/-- R53: the expansion of `HASH text`, run from any state whatever, reads the eight digest words of the text, and its result
is the 32 digest bytes that the DIGEST registers then hold (R30). -/
def Obligations.HashStatementReturnsDigest : Prop :=
  ∀ (s : State) (m : Nat) (text : List Byte), text.length < 2 ^ 61 →
    ∃ bs t rs, (Stmt.hash text).expand = some bs ∧ runBase m bs s = .next (t, rs) ∧
      readValues rs = (sha256 text).toList ∧ digestResult (readValues rs) = digestBytes t ∧
      (digestResult (readValues rs)).length = 32

/-! ### Whole-machine properties -/

/-- The reset state meets the invariant. -/
def Obligations.ResetMeetsInvariant : Prop := State.reset.Inv

/-- R16, R18, R23, R43, R84: every step keeps the invariant, from every state that meets it, whatever the next event is. -/
def Obligations.StepKeepsInvariant : Prop :=
  ∀ s t : State, s.Inv → step s = .next t → t.Inv

/-- R13, R21, R22: what the spec calls `any value` is never observed. Two states that agree in everything defined step to
outcomes that agree in everything defined, the answers at the port included. -/
def Obligations.UndefinedStateNeverShows : Prop :=
  ∀ s u : State, SameDefined s u → SameOutcome (step s) (step u)

/-- R96: no effect of an access depends on which bus master issued it; only the port's record of the access does. -/
def Obligations.MasterNumberIrrelevant : Prop :=
  ∀ (s t : State) (a : Access) (m : Nat),
    serveAccess a s = .next t →
    serveAccess { a with master := m } s =
      .next { t with reply := t.reply.map fun c => { c with access := { a with master := m } } }

/-- R97, R33: an access to one instance never changes another. On a platform whose bases are distinct multiples of 256, at
most one window holds the address of an access, and the access leaves every base as it is and every instance unchanged whose
window does not hold the address. -/
def Obligations.InstancesAreIsolated : Prop :=
  ∀ (p q : Platform) (a : HostAccess), p.WellFormed → platformAccess a p = .next q →
    q.map Slot.base = p.map Slot.base ∧
    (∀ (k : Nat) (s u : Slot), p[k]? = some s → q[k]? = some u →
      ¬ (s.base ≤ a.addr ∧ a.addr < s.base + 256) → u = s) ∧
    (∀ (j k : Nat) (s u : Slot), p[j]? = some s → p[k]? = some u →
      s.base ≤ a.addr → a.addr < s.base + 256 → u.base ≤ a.addr → a.addr < u.base + 256 → j = k)
end

