-- ==== Sys2Proof/Laws/State.lean ====
section
/-! SUPPORT. What each named update of State does to each field: one lemma per field per update, all by `rfl`, so that no
later proof unfolds a record update. -/

namespace Sys2Proof.Machine.State

section
variable (s : State) (v0 : Vector Word 8)

@[simp] theorem setH_h : (s.setH v0).h = v0 := rfl
@[simp] theorem setH_buf : (s.setH v0).buf = s.buf := rfl
@[simp] theorem setH_fill : (s.setH v0).fill = s.fill := rfl
@[simp] theorem setH_total : (s.setH v0).total = s.total := rfl
@[simp] theorem setH_phase : (s.setH v0).phase = s.phase := rfl
@[simp] theorem setH_err : (s.setH v0).err = s.err := rfl
@[simp] theorem setH_errCode : (s.setH v0).errCode = s.errCode := rfl
@[simp] theorem setH_data : (s.setH v0).data = s.data := rfl
@[simp] theorem setH_w : (s.setH v0).w = s.w := rfl
@[simp] theorem setH_work : (s.setH v0).work = s.work := rfl
@[simp] theorem setH_seq : (s.setH v0).seq = s.seq := rfl
@[simp] theorem setH_t : (s.setH v0).t = s.t := rfl
@[simp] theorem setH_inbox : (s.setH v0).inbox = s.inbox := rfl
@[simp] theorem setH_reply : (s.setH v0).reply = s.reply := rfl
@[simp] theorem setH_freeCtr : (s.setH v0).freeCtr = s.freeCtr := rfl

end

section
variable (s : State) (v0 : Vector Byte 64) (v1 : BitVec 6)

@[simp] theorem setBuf_h : (s.setBuf v0 v1).h = s.h := rfl
@[simp] theorem setBuf_buf : (s.setBuf v0 v1).buf = v0 := rfl
@[simp] theorem setBuf_fill : (s.setBuf v0 v1).fill = v1 := rfl
@[simp] theorem setBuf_total : (s.setBuf v0 v1).total = s.total := rfl
@[simp] theorem setBuf_phase : (s.setBuf v0 v1).phase = s.phase := rfl
@[simp] theorem setBuf_err : (s.setBuf v0 v1).err = s.err := rfl
@[simp] theorem setBuf_errCode : (s.setBuf v0 v1).errCode = s.errCode := rfl
@[simp] theorem setBuf_data : (s.setBuf v0 v1).data = s.data := rfl
@[simp] theorem setBuf_w : (s.setBuf v0 v1).w = s.w := rfl
@[simp] theorem setBuf_work : (s.setBuf v0 v1).work = s.work := rfl
@[simp] theorem setBuf_seq : (s.setBuf v0 v1).seq = s.seq := rfl
@[simp] theorem setBuf_t : (s.setBuf v0 v1).t = s.t := rfl
@[simp] theorem setBuf_inbox : (s.setBuf v0 v1).inbox = s.inbox := rfl
@[simp] theorem setBuf_reply : (s.setBuf v0 v1).reply = s.reply := rfl
@[simp] theorem setBuf_freeCtr : (s.setBuf v0 v1).freeCtr = s.freeCtr := rfl

end

section
variable (s : State) (v0 : BitVec 64)

@[simp] theorem setTotal_h : (s.setTotal v0).h = s.h := rfl
@[simp] theorem setTotal_buf : (s.setTotal v0).buf = s.buf := rfl
@[simp] theorem setTotal_fill : (s.setTotal v0).fill = s.fill := rfl
@[simp] theorem setTotal_total : (s.setTotal v0).total = v0 := rfl
@[simp] theorem setTotal_phase : (s.setTotal v0).phase = s.phase := rfl
@[simp] theorem setTotal_err : (s.setTotal v0).err = s.err := rfl
@[simp] theorem setTotal_errCode : (s.setTotal v0).errCode = s.errCode := rfl
@[simp] theorem setTotal_data : (s.setTotal v0).data = s.data := rfl
@[simp] theorem setTotal_w : (s.setTotal v0).w = s.w := rfl
@[simp] theorem setTotal_work : (s.setTotal v0).work = s.work := rfl
@[simp] theorem setTotal_seq : (s.setTotal v0).seq = s.seq := rfl
@[simp] theorem setTotal_t : (s.setTotal v0).t = s.t := rfl
@[simp] theorem setTotal_inbox : (s.setTotal v0).inbox = s.inbox := rfl
@[simp] theorem setTotal_reply : (s.setTotal v0).reply = s.reply := rfl
@[simp] theorem setTotal_freeCtr : (s.setTotal v0).freeCtr = s.freeCtr := rfl

end

section
variable (s : State) (v0 : Phase)

@[simp] theorem setPhase_h : (s.setPhase v0).h = s.h := rfl
@[simp] theorem setPhase_buf : (s.setPhase v0).buf = s.buf := rfl
@[simp] theorem setPhase_fill : (s.setPhase v0).fill = s.fill := rfl
@[simp] theorem setPhase_total : (s.setPhase v0).total = s.total := rfl
@[simp] theorem setPhase_phase : (s.setPhase v0).phase = v0 := rfl
@[simp] theorem setPhase_err : (s.setPhase v0).err = s.err := rfl
@[simp] theorem setPhase_errCode : (s.setPhase v0).errCode = s.errCode := rfl
@[simp] theorem setPhase_data : (s.setPhase v0).data = s.data := rfl
@[simp] theorem setPhase_w : (s.setPhase v0).w = s.w := rfl
@[simp] theorem setPhase_work : (s.setPhase v0).work = s.work := rfl
@[simp] theorem setPhase_seq : (s.setPhase v0).seq = s.seq := rfl
@[simp] theorem setPhase_t : (s.setPhase v0).t = s.t := rfl
@[simp] theorem setPhase_inbox : (s.setPhase v0).inbox = s.inbox := rfl
@[simp] theorem setPhase_reply : (s.setPhase v0).reply = s.reply := rfl
@[simp] theorem setPhase_freeCtr : (s.setPhase v0).freeCtr = s.freeCtr := rfl

end

section
variable (s : State) (v0 : Bool) (v1 : ErrCode)

@[simp] theorem setError_h : (s.setError v0 v1).h = s.h := rfl
@[simp] theorem setError_buf : (s.setError v0 v1).buf = s.buf := rfl
@[simp] theorem setError_fill : (s.setError v0 v1).fill = s.fill := rfl
@[simp] theorem setError_total : (s.setError v0 v1).total = s.total := rfl
@[simp] theorem setError_phase : (s.setError v0 v1).phase = s.phase := rfl
@[simp] theorem setError_err : (s.setError v0 v1).err = v0 := rfl
@[simp] theorem setError_errCode : (s.setError v0 v1).errCode = v1 := rfl
@[simp] theorem setError_data : (s.setError v0 v1).data = s.data := rfl
@[simp] theorem setError_w : (s.setError v0 v1).w = s.w := rfl
@[simp] theorem setError_work : (s.setError v0 v1).work = s.work := rfl
@[simp] theorem setError_seq : (s.setError v0 v1).seq = s.seq := rfl
@[simp] theorem setError_t : (s.setError v0 v1).t = s.t := rfl
@[simp] theorem setError_inbox : (s.setError v0 v1).inbox = s.inbox := rfl
@[simp] theorem setError_reply : (s.setError v0 v1).reply = s.reply := rfl
@[simp] theorem setError_freeCtr : (s.setError v0 v1).freeCtr = s.freeCtr := rfl

end

section
variable (s : State) (v0 : Word)

@[simp] theorem setData_h : (s.setData v0).h = s.h := rfl
@[simp] theorem setData_buf : (s.setData v0).buf = s.buf := rfl
@[simp] theorem setData_fill : (s.setData v0).fill = s.fill := rfl
@[simp] theorem setData_total : (s.setData v0).total = s.total := rfl
@[simp] theorem setData_phase : (s.setData v0).phase = s.phase := rfl
@[simp] theorem setData_err : (s.setData v0).err = s.err := rfl
@[simp] theorem setData_errCode : (s.setData v0).errCode = s.errCode := rfl
@[simp] theorem setData_data : (s.setData v0).data = v0 := rfl
@[simp] theorem setData_w : (s.setData v0).w = s.w := rfl
@[simp] theorem setData_work : (s.setData v0).work = s.work := rfl
@[simp] theorem setData_seq : (s.setData v0).seq = s.seq := rfl
@[simp] theorem setData_t : (s.setData v0).t = s.t := rfl
@[simp] theorem setData_inbox : (s.setData v0).inbox = s.inbox := rfl
@[simp] theorem setData_reply : (s.setData v0).reply = s.reply := rfl
@[simp] theorem setData_freeCtr : (s.setData v0).freeCtr = s.freeCtr := rfl

end

section
variable (s : State) (v0 : Vector Word 64) (v1 : WorkRegs)

@[simp] theorem setEngine_h : (s.setEngine v0 v1).h = s.h := rfl
@[simp] theorem setEngine_buf : (s.setEngine v0 v1).buf = s.buf := rfl
@[simp] theorem setEngine_fill : (s.setEngine v0 v1).fill = s.fill := rfl
@[simp] theorem setEngine_total : (s.setEngine v0 v1).total = s.total := rfl
@[simp] theorem setEngine_phase : (s.setEngine v0 v1).phase = s.phase := rfl
@[simp] theorem setEngine_err : (s.setEngine v0 v1).err = s.err := rfl
@[simp] theorem setEngine_errCode : (s.setEngine v0 v1).errCode = s.errCode := rfl
@[simp] theorem setEngine_data : (s.setEngine v0 v1).data = s.data := rfl
@[simp] theorem setEngine_w : (s.setEngine v0 v1).w = v0 := rfl
@[simp] theorem setEngine_work : (s.setEngine v0 v1).work = v1 := rfl
@[simp] theorem setEngine_seq : (s.setEngine v0 v1).seq = s.seq := rfl
@[simp] theorem setEngine_t : (s.setEngine v0 v1).t = s.t := rfl
@[simp] theorem setEngine_inbox : (s.setEngine v0 v1).inbox = s.inbox := rfl
@[simp] theorem setEngine_reply : (s.setEngine v0 v1).reply = s.reply := rfl
@[simp] theorem setEngine_freeCtr : (s.setEngine v0 v1).freeCtr = s.freeCtr := rfl

end

section
variable (s : State) (v0 : Seq) (v1 : BitVec 7)

@[simp] theorem setSeq_h : (s.setSeq v0 v1).h = s.h := rfl
@[simp] theorem setSeq_buf : (s.setSeq v0 v1).buf = s.buf := rfl
@[simp] theorem setSeq_fill : (s.setSeq v0 v1).fill = s.fill := rfl
@[simp] theorem setSeq_total : (s.setSeq v0 v1).total = s.total := rfl
@[simp] theorem setSeq_phase : (s.setSeq v0 v1).phase = s.phase := rfl
@[simp] theorem setSeq_err : (s.setSeq v0 v1).err = s.err := rfl
@[simp] theorem setSeq_errCode : (s.setSeq v0 v1).errCode = s.errCode := rfl
@[simp] theorem setSeq_data : (s.setSeq v0 v1).data = s.data := rfl
@[simp] theorem setSeq_w : (s.setSeq v0 v1).w = s.w := rfl
@[simp] theorem setSeq_work : (s.setSeq v0 v1).work = s.work := rfl
@[simp] theorem setSeq_seq : (s.setSeq v0 v1).seq = v0 := rfl
@[simp] theorem setSeq_t : (s.setSeq v0 v1).t = v1 := rfl
@[simp] theorem setSeq_inbox : (s.setSeq v0 v1).inbox = s.inbox := rfl
@[simp] theorem setSeq_reply : (s.setSeq v0 v1).reply = s.reply := rfl
@[simp] theorem setSeq_freeCtr : (s.setSeq v0 v1).freeCtr = s.freeCtr := rfl

end

section
variable (s : State) (v0 : List Event)

@[simp] theorem setInbox_h : (s.setInbox v0).h = s.h := rfl
@[simp] theorem setInbox_buf : (s.setInbox v0).buf = s.buf := rfl
@[simp] theorem setInbox_fill : (s.setInbox v0).fill = s.fill := rfl
@[simp] theorem setInbox_total : (s.setInbox v0).total = s.total := rfl
@[simp] theorem setInbox_phase : (s.setInbox v0).phase = s.phase := rfl
@[simp] theorem setInbox_err : (s.setInbox v0).err = s.err := rfl
@[simp] theorem setInbox_errCode : (s.setInbox v0).errCode = s.errCode := rfl
@[simp] theorem setInbox_data : (s.setInbox v0).data = s.data := rfl
@[simp] theorem setInbox_w : (s.setInbox v0).w = s.w := rfl
@[simp] theorem setInbox_work : (s.setInbox v0).work = s.work := rfl
@[simp] theorem setInbox_seq : (s.setInbox v0).seq = s.seq := rfl
@[simp] theorem setInbox_t : (s.setInbox v0).t = s.t := rfl
@[simp] theorem setInbox_inbox : (s.setInbox v0).inbox = v0 := rfl
@[simp] theorem setInbox_reply : (s.setInbox v0).reply = s.reply := rfl
@[simp] theorem setInbox_freeCtr : (s.setInbox v0).freeCtr = s.freeCtr := rfl

end

section
variable (s : State) (v0 : Option Completion)

@[simp] theorem setReply_h : (s.setReply v0).h = s.h := rfl
@[simp] theorem setReply_buf : (s.setReply v0).buf = s.buf := rfl
@[simp] theorem setReply_fill : (s.setReply v0).fill = s.fill := rfl
@[simp] theorem setReply_total : (s.setReply v0).total = s.total := rfl
@[simp] theorem setReply_phase : (s.setReply v0).phase = s.phase := rfl
@[simp] theorem setReply_err : (s.setReply v0).err = s.err := rfl
@[simp] theorem setReply_errCode : (s.setReply v0).errCode = s.errCode := rfl
@[simp] theorem setReply_data : (s.setReply v0).data = s.data := rfl
@[simp] theorem setReply_w : (s.setReply v0).w = s.w := rfl
@[simp] theorem setReply_work : (s.setReply v0).work = s.work := rfl
@[simp] theorem setReply_seq : (s.setReply v0).seq = s.seq := rfl
@[simp] theorem setReply_t : (s.setReply v0).t = s.t := rfl
@[simp] theorem setReply_inbox : (s.setReply v0).inbox = s.inbox := rfl
@[simp] theorem setReply_reply : (s.setReply v0).reply = v0 := rfl
@[simp] theorem setReply_freeCtr : (s.setReply v0).freeCtr = s.freeCtr := rfl

end

section
variable (s : State) (v0 : Nat)

@[simp] theorem setFreeCtr_h : (s.setFreeCtr v0).h = s.h := rfl
@[simp] theorem setFreeCtr_buf : (s.setFreeCtr v0).buf = s.buf := rfl
@[simp] theorem setFreeCtr_fill : (s.setFreeCtr v0).fill = s.fill := rfl
@[simp] theorem setFreeCtr_total : (s.setFreeCtr v0).total = s.total := rfl
@[simp] theorem setFreeCtr_phase : (s.setFreeCtr v0).phase = s.phase := rfl
@[simp] theorem setFreeCtr_err : (s.setFreeCtr v0).err = s.err := rfl
@[simp] theorem setFreeCtr_errCode : (s.setFreeCtr v0).errCode = s.errCode := rfl
@[simp] theorem setFreeCtr_data : (s.setFreeCtr v0).data = s.data := rfl
@[simp] theorem setFreeCtr_w : (s.setFreeCtr v0).w = s.w := rfl
@[simp] theorem setFreeCtr_work : (s.setFreeCtr v0).work = s.work := rfl
@[simp] theorem setFreeCtr_seq : (s.setFreeCtr v0).seq = s.seq := rfl
@[simp] theorem setFreeCtr_t : (s.setFreeCtr v0).t = s.t := rfl
@[simp] theorem setFreeCtr_inbox : (s.setFreeCtr v0).inbox = s.inbox := rfl
@[simp] theorem setFreeCtr_reply : (s.setFreeCtr v0).reply = s.reply := rfl
@[simp] theorem setFreeCtr_freeCtr : (s.setFreeCtr v0).freeCtr = v0 := rfl

end

end Sys2Proof.Machine.State
end

