-- ==== Sys2Proof/Laws/Ops.lean ====
section
/-! SUPPORT. What the shared operations can do: their cases, and their frames. -/

namespace Sys2Proof.Machine

/-! ### The sequencer -/

/-- `n + 1` micro-steps are `n` and one more. -/
theorem seqRun_succ (n : Nat) (s : State) : seqRun (n + 1) s = seqStep (seqRun n s) := by
  induction n generalizing s with
  | zero => rfl
  | succ n ih => rw [seqRun, ih, seqRun]

/-- The registers a compression never writes: everything but H, W, `a..h`, SEQ, t and the count of free values. -/
structure SameOutsideEngine (s u : State) : Prop where
  buf : u.buf = s.buf
  fill : u.fill = s.fill
  total : u.total = s.total
  phase : u.phase = s.phase
  err : u.err = s.err
  errCode : u.errCode = s.errCode
  data : u.data = s.data
  inbox : u.inbox = s.inbox
  reply : u.reply = s.reply

theorem SameOutsideEngine.trans {s u v : State} (a : SameOutsideEngine s u) (b : SameOutsideEngine u v) :
    SameOutsideEngine s v :=
  ⟨b.buf.trans a.buf, b.fill.trans a.fill, b.total.trans a.total, b.phase.trans a.phase, b.err.trans a.err,
    b.errCode.trans a.errCode, b.data.trans a.data, b.inbox.trans a.inbox, b.reply.trans a.reply⟩

theorem seqStep_frame (s : State) : SameOutsideEngine s (seqStep s) := by
  unfold seqStep
  split
  · exact ⟨rfl, rfl, rfl, rfl, rfl, rfl, rfl, rfl, rfl⟩
  · constructor <;> simp [seqRound]
  · constructor <;> simp [seqFold]

theorem seqRun_frame (n : Nat) (s : State) : SameOutsideEngine s (seqRun n s) := by
  induction n generalizing s with
  | zero => exact ⟨rfl, rfl, rfl, rfl, rfl, rfl, rfl, rfl, rfl⟩
  | succ n ih => exact (seqStep_frame s).trans (ih (seqStep s))

theorem seqStart_frame (X : Vector Byte 64) (s : State) : SameOutsideEngine s (seqStart X s) := by
  constructor <;> simp [seqStart]

theorem forgetEngine_frame (s : State) : SameOutsideEngine s (forgetEngine s) := by
  constructor <;> simp [forgetEngine]

theorem compressBlock_frame (X : Vector Byte 64) (s : State) : SameOutsideEngine s (compressBlock X s) := by
  rw [compressBlock]
  exact (seqStart_frame X s).trans ((seqRun_frame 65 _).trans (forgetEngine_frame _))

theorem compressStream_frame (n : Nat) (X : List Byte) (s : State) : SameOutsideEngine s (compressStream n X s) := by
  induction n generalizing X s with
  | zero => exact ⟨rfl, rfl, rfl, rfl, rfl, rfl, rfl, rfl, rfl⟩
  | succ n ih => exact (compressBlock_frame _ s).trans (ih _ _)

/-! ### Contract errors -/

/-- R88 as two cases: an error is already recorded and nothing happens, or the pair is written. -/
theorem contractError_cases (code : ErrCode) (s : State) :
    (s.err = true ∧ contractError code s = s) ∨ (s.err = false ∧ contractError code s = s.setError true code) := by
  unfold contractError
  cases h : s.err <;> simp

/-! ### The staging buffer -/

theorem buffered_length (s : State) : (buffered s).length = s.fill.toNat := by
  have := s.fill.isLt
  simp [buffered]
  omega

theorem buffered_get (s : State) (i : Nat) (h : i < (buffered s).length) :
    (buffered s)[i] = s.buf[i]'(by have := buffered_length s; have := s.fill.isLt; omega) := by
  simp [buffered]

/-- With FILL = 0 the buffer holds nothing (R13). -/
theorem buffered_empty (s : State) (h : s.fill = 0) : buffered s = [] := by
  apply List.eq_nil_of_length_eq_zero
  rw [buffered_length, h]
  rfl

/-- Forgetting the bytes beyond FILL leaves the buffered bytes. -/
theorem buffered_forgetTail (s : State) : buffered (forgetTail s) = buffered s := by
  apply List.ext_getElem
  · simp [buffered_length, forgetTail]
  · intro i h1 h2
    rw [buffered_get, buffered_get]
    rw [buffered_length] at h2
    simp [forgetTail, h2]

/-- What `writeBytes` puts at each place (R59). -/
theorem writeBytes_get (buf : Vector Byte 64) (off : Nat) (S : List Byte) (j : Nat) (hj : j < 64) :
    (writeBytes buf off S)[j] = if h : off ≤ j ∧ j - off < S.length then S[j - off] else buf[j] := by
  unfold writeBytes
  simp only [Vector.getElem_ofFn]
  by_cases h : off ≤ j
  · simp only [h, if_true, true_and]
    by_cases h2 : j - off < S.length
    · simp [h2]
    · simp [h2]
  · simp [h]

/-- R59: Absorb touches neither TOTAL (spec/90_conflicts.md C1), nor PHASE, nor the error status, nor DATA, nor the port. -/
theorem absorb_frame (S : List Byte) (s : State) :
    (absorb S s).total = s.total ∧ (absorb S s).phase = s.phase ∧ (absorb S s).err = s.err ∧
    (absorb S s).errCode = s.errCode ∧ (absorb S s).data = s.data ∧ (absorb S s).inbox = s.inbox ∧
    (absorb S s).reply = s.reply := by
  unfold absorb
  split
  · simp
  · split
    · simp [forgetTail, absorbAppend]
    · have h := compressStream_frame ((s.fill.toNat + S.length) / 64) (buffered s ++ S) s
      simp [forgetTail, absorbBlocks, h.total, h.phase, h.err, h.errCode, h.data, h.inbox, h.reply]

end Sys2Proof.Machine
end

