-- ==== Sys2Proof/Laws/Commands.lean ====
section
/-! SUPPORT. The cases of each command (spec/40_command_dispatch.md R54, R55), and that every command word has an effect. -/

namespace Sys2Proof.Machine

/-- UPDATE N: ignored, rejected or absorbed (R61). -/
theorem updateOp_cases (n : BitVec 3) (s : State) :
    (s.err = true ∧ updateOp n s = s) ∨
    (s.err = false ∧ s.phase = .finalized ∧ updateOp n s = s.setError true .updateAfterFinalize) ∨
    (s.err = false ∧ s.phase = .accepting ∧
      updateOp n s = (absorb (dataBytes n s.data) s).setTotal (s.total + n.setWidth 64)) := by
  unfold updateOp contractError
  cases he : s.err <;> cases hp : s.phase <;> simp

/-- FINALIZE: ignored, rejected or performed (R83). -/
theorem finalizeOp_cases (s : State) :
    (s.err = true ∧ finalizeOp s = s) ∨
    (s.err = false ∧ s.phase = .finalized ∧ finalizeOp s = s.setError true .finalizeAfterFinalize) ∨
    (s.err = false ∧ s.phase = .accepting ∧
      finalizeOp s = (paddingCheck (absorb (padding s.total) s)).setPhase .finalized) := by
  unfold finalizeOp contractError
  cases he : s.err <;> cases hp : s.phase <;> simp

/-- An illegal word: ignored or recorded (R52). -/
theorem illegalOp_cases (s : State) :
    (s.err = true ∧ illegalOp s = s) ∨ (s.err = false ∧ illegalOp s = s.setError true .illegalCommand) := by
  unfold illegalOp contractError
  cases he : s.err <;> simp

/-- The post-padding check: passed, or recorded (R84). -/
theorem paddingCheck_cases (s : State) :
    (s.fill = 0 ∧ paddingCheck s = s) ∨ (s.fill ≠ 0 ∧ paddingCheck s = contractError .paddingCheck s) := by
  unfold paddingCheck
  by_cases h : s.fill = 0
  · exact .inl ⟨h, by simp [h]⟩
  · exact .inr ⟨h, if_pos h⟩

/-- No meaning faults or refuses. -/
theorem exec_next (i : Instr) (s : State) : ∃ t, exec i s = .next t := by
  cases i <;> exact ⟨_, rfl⟩

/-- R54: a legal word runs its meaning, any other word is an illegal command. -/
theorem execute_cases (v : Word) (s : State) :
    (∃ i, decode v = .ok i ∧ execute v s = exec i s) ∨
    (∃ e, decode v = .error e ∧ execute v s = .next (illegalOp s)) := by
  unfold execute
  cases h : decode v with
  | ok i => exact .inl ⟨i, rfl, rfl⟩
  | error e => exact .inr ⟨e, rfl, rfl⟩

/-- Every command word, legal or not, has a next state (R93). -/
theorem execute_next (v : Word) (s : State) : ∃ t, execute v s = .next t := by
  rcases execute_cases v s with ⟨i, _, h⟩ | ⟨_, _, h⟩
  · obtain ⟨t, ht⟩ := exec_next i s
    exact ⟨t, h.trans ht⟩
  · exact ⟨_, h⟩

end Sys2Proof.Machine
end

