-- ==== Sys2Proof/Laws/Engine.lean ====
section
/-! SUPPORT. The message schedule, one index at a time: what each function of Machine/Engine.lean puts at each place. -/

namespace Sys2Proof.Machine

/-- Inside the 64 rounds a round number is its own index. -/
theorem index64_val {n : Nat} (h : n < 64) : (index64 n).val = n := Nat.mod_eq_of_lt h

/-- The recurrence of R69 with plain indices. -/
theorem expandWord_eq (W : Vector Word 64) (n : Nat) (h1 : 16 ≤ n) (h2 : n < 64) :
    expandWord W (index64 n) = W[n - 16] + sigma0 W[n - 15] + W[n - 7] + sigma1 W[n - 2] := by
  have back : ∀ k : Nat, k ≤ 16 → (index64 n - index64 k : Fin 64).val = n - k := by
    intro k hk
    rw [Fin.sub_def]
    simp only [index64]
    omega
  change W[(index64 n - index64 16 : Fin 64).val] + sigma0 W[(index64 n - index64 15 : Fin 64).val] +
    W[(index64 n - index64 7 : Fin 64).val] + sigma1 W[(index64 n - index64 2 : Fin 64).val] = _
  simp only [back 16 (by omega), back 15 (by omega), back 7 (by omega), back 2 (by omega)]

/-- Schedule step n writes at most index n. -/
theorem expandStep_get (W : Vector Word 64) (n j : Nat) (hn : n < 64) (hj : j < 64) :
    (expandStep W (index64 n))[j] =
      if h : 16 ≤ n ∧ j = n then W[n - 16] + sigma0 W[n - 15] + W[n - 7] + sigma1 W[n - 2] else W[j] := by
  unfold expandStep
  by_cases h : 16 ≤ n
  · simp only [index64_val hn, h, if_true, true_and]
    rw [Vector.getElem_set]
    by_cases hj' : j = n
    · subst hj'
      simp [expandWord_eq W j h hn]
    · simp [hj', Ne.symm hj']
  · simp [index64_val hn, h]

/-- A schedule word keeps its value once its step is done. -/
theorem scheduleUpTo_stable (W : Vector Word 64) (k d : Nat) (hk : k + d ≤ 64) (j : Nat) (hj : j < 64)
    (h : j < 16 ∨ j < k) : (scheduleUpTo W (k + d))[j] = (scheduleUpTo W k)[j] := by
  induction d with
  | zero => rfl
  | succ d ih =>
    rw [← ih (by omega)]
    show (expandStep (scheduleUpTo W (k + d)) (index64 (k + d)))[j] = _
    rw [expandStep_get _ (k + d) j (by omega) hj, dif_neg (by omega)]

/-- The block load fills the first sixteen words from the block (R66). -/
theorem loadBlock_get (B : Vector Byte 64) (W : Vector Word 64) (j : Nat) (h : j < 16) :
    (loadBlock B W)[j] = blockWord B ⟨j, h⟩ := by
  simp [loadBlock, h]

end Sys2Proof.Machine
end

