-- ==== Sys2Proof/Laws/HostPort.lean ====
section
/-! SUPPORT. The register port and the step: which accesses lead to a next state, and which one. -/

namespace Sys2Proof.Machine

/-- The register map is the table of R28 read both ways. -/
theorem regAt_offset (r : Reg) : regAt r.offset = some r := by
  cases r with
  | digest i => fin_cases i <;> rfl
  | _ => rfl

/-- Only offset 0x00 holds CMD. -/
theorem regAt_eq_cmd {off : Offset} (h : regAt off = some .cmd) : off = 0x00 := by
  unfold regAt at h
  by_contra h0
  rw [if_neg h0] at h
  repeat' split at h
  all_goals simp at h

/-- Only offset 0x04 holds DATA. -/
theorem regAt_eq_data {off : Offset} (h : regAt off = some .data) : off = 0x04 := by
  unfold regAt at h
  by_contra h4
  rw [if_neg h4] at h
  repeat' split at h
  all_goals simp at h

/-- A write that completes executed a command or stored DATA (R36). -/
theorem memWrite_next {off : Offset} {width : AccessWidth} {v : Word} {s t : State}
    (h : memWrite off width v s = .next t) :
    width = .four ∧ ((off = 0x00 ∧ execute v s = .next t) ∨ (off = 0x04 ∧ t = s.setData v)) := by
  unfold memWrite at h
  split at h
  · cases h
  split at h
  · cases h
  rename_i hw _
  refine ⟨by cases width <;> simp_all, ?_⟩
  split at h
  · cases h
  · rename_i hr
    exact .inl ⟨regAt_eq_cmd hr, h⟩
  · rename_i hr
    cases h
    exact .inr ⟨regAt_eq_data hr, rfl⟩
  · cases h

/-- The three ways an access completes: a read, a write of DATA, a command (R34). -/
theorem serveAccess_next {a : Access} {s t : State} (h : serveAccess a s = .next t) :
    (∃ v, a.op = .read ∧ memRead a.off a.width s = .ok v ∧ t = complete a (.value v) s) ∨
    (∃ v, a = { master := a.master, off := 0x04, width := .four, op := .write v } ∧
      t = complete a .done (s.setData v)) ∨
    (∃ v u, a = commandWrite a.master v ∧ execute v s = .next u ∧ t = complete a .done u) := by
  obtain ⟨m, off, width, op⟩ := a
  cases op with
  | read =>
    left
    unfold serveAccess at h
    dsimp only at h
    split at h
    · rename_i v hv
      cases h
      exact ⟨v, rfl, hv, rfl⟩
    · cases h
  | write v =>
    right
    change mapNext _ (memWrite off width v s) = _ at h
    cases hx : memWrite off width v s with
    | fault r => rw [hx] at h; cases h
    | refused r => rw [hx] at h; cases h
    | next u =>
      rw [hx] at h
      cases h
      obtain ⟨rfl, ⟨rfl, he⟩ | ⟨rfl, rfl⟩⟩ := memWrite_next hx
      · exact .inr ⟨v, u, rfl, he, rfl⟩
      · exact .inl ⟨v, rfl, rfl⟩

/-- Everything a step that goes on can be. -/
inductive StepCase (s t : State) : Prop
  /-- No event: the block is idle. -/
  | idle (hs : s.inbox = []) (ht : t = s)
  /-- The reset input. -/
  | reset (aborted : Option Access) (rest : List Event) (hs : s.inbox = .reset aborted :: rest)
      (ht : t = resetBlock aborted (s.setInbox rest))
  /-- A read. -/
  | read (a : Access) (rest : List Event) (v : Word) (hs : s.inbox = .access a :: rest) (ha : a.op = .read)
      (hv : memRead a.off a.width s = .ok v) (ht : t = complete a (.value v) (s.setInbox rest))
  /-- A write of DATA. -/
  | data (m : Nat) (v : Word) (rest : List Event)
      (hs : s.inbox = .access { master := m, off := 0x04, width := .four, op := .write v } :: rest)
      (ht : t = complete { master := m, off := 0x04, width := .four, op := .write v } .done
        ((s.setInbox rest).setData v))
  /-- A command word. -/
  | command (m : Nat) (v : Word) (rest : List Event) (u : State)
      (hs : s.inbox = .access (commandWrite m v) :: rest) (he : execute v (s.setInbox rest) = .next u)
      (ht : t = complete (commandWrite m v) .done u)

/-- The inversion of `step`: a next state came about in one of the five ways. -/
theorem step_cases {s t : State} (h : step s = .next t) : StepCase s t := by
  unfold step at h
  split at h
  · rename_i hs
    cases h
    exact .idle hs rfl
  · rename_i e rest hs
    cases e with
    | reset aborted =>
      cases h
      exact .reset aborted rest hs rfl
    | access a =>
      rcases serveAccess_next h with ⟨v, h1, h2, h3⟩ | ⟨v, h1, h2⟩ | ⟨v, u, h1, h2, h3⟩
      · exact .read a rest v hs h1 h2 h3
      · rw [h1] at hs h2
        exact .data _ v rest hs h2
      · rw [h1] at hs h3
        exact .command _ v rest u hs h2 h3

end Sys2Proof.Machine
end

