-- ==== Sys2Proof/Laws/PerInstr.lean ====
section
/-! SUPPORT. Statements for all instructions, one lemma per constructor of Instr. -/

namespace Sys2Proof.Laws.EncodedFields

/-- The word of an instruction carries its fields at the places of R48, and they are legal. -/
def Statement (i : Instr) : Prop :=
  i.WellFormed ∧ opField (encode i) = i.fields.op ∧ countField (encode i) = i.fields.n ∧
    rsvField (encode i) = i.fields.rsv

theorem nop : Statement .nop := by unfold Statement; decide
theorem init : Statement .init := by unfold Statement; decide
theorem update0 : Statement .update0 := by unfold Statement; decide
theorem update1 : Statement .update1 := by unfold Statement; decide
theorem update2 : Statement .update2 := by unfold Statement; decide
theorem update3 : Statement .update3 := by unfold Statement; decide
theorem update4 : Statement .update4 := by unfold Statement; decide
theorem finalize : Statement .finalize := by unfold Statement; decide

end Sys2Proof.Laws.EncodedFields
end

