-- ==== Sys2Proof/Tests/Slice0.lean ====
section
/-! SUPPORT. Tests against the vectors of spec/95_test_vectors.md (V<n>), the well-formedness smoke test, and a witness for
the hypotheses of every statement that has some. Every expected value of a `test_` theorem is copied from the spec. -/

namespace Sys2Proof.Tests

open Sys2Proof Sys2Proof.Machine

/-! ### Helpers -/

/-- The next state of an outcome meets `p`. -/
def nextSat (o : StepOutcome) (p : State → Bool) : Bool :=
  match o with
  | .next t => p t
  | .fault _ => false
  | .refused _ => false

theorem exists_of_nextSat {o : StepOutcome} {p : State → Bool} (h : nextSat o p = true) :
    ∃ t, o = .next t ∧ p t = true := by
  cases o with
  | next t => exact ⟨t, rfl, h⟩
  | fault r => cases h
  | refused r => cases h

/-- The fault of an outcome. -/
def faultOf (o : StepOutcome) : Option Fault :=
  match o with
  | .next _ => none
  | .fault r => some r
  | .refused _ => none

/-- The byte 'a' sixty-four times (V14, V32). -/
def aBlock : Vector Byte 64 := Vector.replicate 64 0x61

/-- The state V32 starts from: reset, then FILL bytes 'a' fed, and a word in DATA. -/
def fed (fill : BitVec 6) (data : Word) : State :=
  { State.reset with buf := aBlock, fill := fill, total := fill.setWidth 64, data := data }

/-- A state with a finished message. -/
def finished : State := { State.reset with phase := .finalized }

/-- A state with a recorded error. -/
def failed : State := { State.reset with err := true, errCode := .illegalCommand }

/-- A state with its next event in the inbox. -/
def withEvent (e : Event) (s : State) : State := { s with inbox := [e] }

/-- A state whose next event writes a word to CMD. -/
def withCommand (v : Word) (s : State) : State := withEvent (.access (commandWrite 0 v)) s

/-- The padded block of "abc" (V10). -/
def abcBlock : Vector Byte 64 := Vector.ofFn fun i : Fin 64 => ([0x61, 0x62, 0x63, 0x80] ++ List.replicate 59 0 ++ [0x18]).getD i.val 0

/-- The digest of "abc" (V2). -/
def abcDigest : Vector Word 8 :=
  #v[0xba7816bf, 0x8f01cfea, 0x414140de, 0x5dae2223, 0xb00361a3, 0x96177a9c, 0xb410ff61, 0xf20015ad]

/-! ### Decoding (V33) -/

theorem test_decode_nop : decode 0x00000000 = .ok .nop := by decide
theorem test_decode_init : decode 0x00000001 = .ok .init := by decide
theorem test_decode_update0 : decode 0x00000002 = .ok .update0 := by decide
theorem test_decode_update1 : decode 0x00000012 = .ok .update1 := by decide
theorem test_decode_update2 : decode 0x00000022 = .ok .update2 := by decide
theorem test_decode_update3 : decode 0x00000032 = .ok .update3 := by decide
theorem test_decode_update4 : decode 0x00000042 = .ok .update4 := by decide
theorem test_decode_finalize : decode 0x00000003 = .ok .finalize := by decide

/-- The words of V33 that are ILLEGAL, with the case of R52 each falls under. -/
theorem test_decode_illegal :
    decode 0x00000052 = .error .updateCount ∧ decode 0x00000062 = .error .updateCount ∧
    decode 0x00000072 = .error .updateCount ∧ decode 0x00000010 = .error .strayCount ∧
    decode 0x00000011 = .error .strayCount ∧ decode 0x00000013 = .error .strayCount ∧
    decode 0x00000004 = .error .reservedOp ∧ decode 0x00000005 = .error .reservedOp ∧
    decode 0x0000000f = .error .reservedOp ∧ decode 0x00000080 = .error .reservedBits ∧
    decode 0x00000082 = .error .reservedBits ∧ decode 0x80000000 = .error .reservedBits ∧
    decode 0x80000001 = .error .reservedBits ∧ decode 0xffffffff = .error .reservedBits ∧
    decode 0x00000102 = .error .reservedBits := by decide

/-- The encoder writes the words of R51. -/
theorem test_encode :
    [Instr.nop, .init, .update0, .update1, .update2, .update3, .update4, .finalize].map encode =
      [0x00000000, 0x00000001, 0x00000002, 0x00000012, 0x00000022, 0x00000032, 0x00000042, 0x00000003] := by decide

theorem test_decode_table_word :
    decodeTableWord 32 0x42 = some .update4 ∧ decodeTableWord 32 0x52 = none ∧
    decodeTableWord 8 0xffffff03 = some .finalize := by decide

/-! ### Well-formedness: each check refuses an ill-formed triple of fields -/

theorem test_illformed_rsv : (CommandFields.mk 1 0 1).rsvZero = false ∧ (CommandFields.mk 1 0 1).wellFormed = false := by
  decide
theorem test_illformed_op : (CommandFields.mk 4 0 0).opAssigned = false ∧ (CommandFields.mk 4 0 0).wellFormed = false := by
  decide
theorem test_illformed_count :
    (CommandFields.mk 2 5 0).countLegal = false ∧ (CommandFields.mk 2 5 0).wellFormed = false := by decide
theorem test_illformed_stray_count :
    (CommandFields.mk 3 1 0).countLegal = false ∧ (CommandFields.mk 3 1 0).wellFormed = false := by decide

/-! ### The compression engine (V10, V11, V12, V14) -/

/-- V11, rows 12345678, 80000000 and ffffffff. -/
theorem test_sigmas :
    sigma0 0x12345678 = 0xe7fce6ee ∧ sigma1 0x12345678 = 0xa1f78649 ∧ bigSigma0 0x12345678 = 0x66146474 ∧
    bigSigma1 0x12345678 = 0x3561abda ∧ sigma0 0x80000000 = 0x11002000 ∧ sigma1 0x80000000 = 0x00205000 ∧
    bigSigma0 0x80000000 = 0x20040200 ∧ bigSigma1 0x80000000 = 0x02100040 ∧ sigma0 0xffffffff = 0x1fffffff := by decide

/-- R72 and R73, the worked examples. -/
theorem test_ch_maj :
    ch 0xf0f0f0f0 0xff00ff00 0x0f0f0f0f = 0xff0fff0f ∧ maj 0xffffffff 0x12345678 0x9abcdef0 = 0x9abcdef8 := by decide

/-- V10, row 0. -/
theorem test_round_zero :
    round (loadWork ivRom) 0x428a2f98 0x61626380 =
      { a := 0x5d6aebcd, b := 0x6a09e667, c := 0xbb67ae85, d := 0x3c6ef372
        e := 0xfa2a4622, f := 0x510e527f, g := 0x9b05688c, h := 0x1f83d9ab } := by decide

/-- V10, the schedule words 0, 15, 16, 17, 18 and 63. -/
theorem test_schedule_abc :
    (schedule abcBlock)[0] = 0x61626380 ∧ (schedule abcBlock)[15] = 0x00000018 ∧
    (schedule abcBlock)[16] = 0x61626380 ∧ (schedule abcBlock)[17] = 0x000f0000 ∧
    (schedule abcBlock)[18] = 0x7da86405 ∧ (schedule abcBlock)[63] = 0x12b1edeb := by decide +kernel

/-- V10 by the window of R79. -/
theorem test_window_abc : windowWord abcBlock 18 = 0x7da86405 ∧ windowWord abcBlock 63 = 0x12b1edeb := by decide +kernel

/-- V10, the fold. -/
theorem test_compress_abc : compress ivRom abcBlock = abcDigest := by decide +kernel

/-- V14, the zero block under a zero hash state. -/
theorem test_compress_zero :
    compress (Vector.replicate 8 0) (Vector.replicate 64 0) =
      #v[0x7ca51614, 0x425c3ba8, 0xce54dd2f, 0xc2020ae7, 0xb6e574d1, 0x98136d0f, 0xae7e26cc, 0xbf0be7a6] := by
  decide +kernel

/-- V14, 64 bytes 'a' under IV, by the sequencer. -/
theorem test_sequencer_a :
    (compressBlock aBlock State.reset).h =
      #v[0xdf5bb81c, 0xe81e0626, 0xfb45a894, 0x4fd40f31, 0xb25e6816, 0xd6d499c1, 0xab904929, 0x00635e66] := by
  decide +kernel

/-! ### The padding generator (V12, V20, R80) -/

theorem test_padding_three : padding 3 = 0x80 :: (List.replicate 59 0 ++ [0x18]) := by decide +kernel

theorem test_padding_lengths :
    ([0, 1, 54, 55, 56, 57, 63] : List (BitVec 64)).map padBytes = [64, 63, 10, 9, 72, 71, 65] := by decide

theorem test_length_bits_wrap :
    lengthBits 0x2000000000000003 = 0x18 ∧ lengthBits 0x1fffffffffffffff = 0xfffffffffffffff8 := by decide

/-! ### One step of each command (V1, V2, V12, V22, V30, V32) -/

/-- V30: NOP with an error recorded leaves STATUS at 0x33. -/
theorem test_step_nop :
    nextSat (step (withCommand 0x00000000 { State.reset with phase := .finalized, err := true, errCode := .finalizeAfterFinalize }))
      (fun t => statusWord t == 0x00000033) = true := by decide

/-- R57: INIT after FINALIZE of "abc". -/
theorem test_step_init :
    nextSat (step (withCommand 0x00000001 { finished with h := abcDigest, total := 3, err := true, errCode := .illegalCommand }))
      (fun t => statusWord t == 0 && t.total == 0 && t.h == ivRom) = true := by decide

/-- V32, row FILL 63, UPDATE 0. -/
theorem test_step_update0 :
    nextSat (step (withCommand 0x00000002 (fed 63 0x61626364)))
      (fun t => statusWord t == 0x00003f00 && t.total == 63 && buffered t == List.replicate 63 0x61) = true := by decide

/-- V30: UPDATE 0 after FINALIZE records code 2. -/
theorem test_step_update0_spent :
    nextSat (step (withCommand 0x00000002 finished)) (fun t => statusWord t == 0x00000023) = true := by decide

/-- V32, the corner case: TOTAL wraps as the 64th byte arrives. -/
theorem test_step_update1_wrap :
    nextSat (step (withCommand 0x00000012 { fed 63 0x62000000 with total := 0xffffffffffffffff }))
      (fun t => statusWord t == 0 && t.total == 0 && t.h[0] == 0x77c8c95c) = true := by decide +kernel

/-- V32, row FILL 55, UPDATE 1. -/
theorem test_step_update1_append :
    nextSat (step (withCommand 0x00000012 (fed 55 0x80000000)))
      (fun t => statusWord t == 0x00003800 && t.total == 56 && buffered t == List.replicate 55 0x61 ++ [0x80]) = true := by
  decide +kernel

/-- V32, row FILL 62, UPDATE 2, with the hash state of P7. -/
theorem test_step_update2 :
    nextSat (step (withCommand 0x00000022 (fed 62 0x62636465)))
      (fun t => statusWord t == 0 && t.total == 64 && t.h[0] == 0xcaa67f36 && t.h[7] == 0xd9d8a9fa) = true := by
  decide +kernel

/-- V2: UPDATE 3 of "abc". -/
theorem test_step_update3 :
    nextSat (step (withCommand 0x00000032 { State.reset with data := 0x61626300 }))
      (fun t => statusWord t == 0x00000300 && t.total == 3 && buffered t == [0x61, 0x62, 0x63] && t.h == ivRom) = true := by
  decide +kernel

/-- P7: the word that straddles the block boundary. -/
theorem test_step_update4_straddle :
    nextSat (step (withCommand 0x00000042 (fed 62 0x62636465)))
      (fun t => statusWord t == 0x00000200 && t.total == 66 && buffered t == [0x64, 0x65] && t.h[1] == 0x32db7ceb) = true := by
  decide +kernel

/-- V32, row FILL 59, UPDATE 4. -/
theorem test_step_update4_append :
    nextSat (step (withCommand 0x00000042 (fed 59 0x61626364)))
      (fun t => statusWord t == 0x00003f00 && t.total == 63 && buffered t == List.replicate 60 0x61 ++ [0x62, 0x63, 0x64]) =
      true := by decide +kernel

/-- V1: FINALIZE of the empty message. -/
theorem test_step_finalize_empty :
    nextSat (step (withCommand 0x00000003 State.reset))
      (fun t => statusWord t == 1 && t.total == 0 &&
        t.h == #v[0xe3b0c442, 0x98fc1c14, 0x9afbf4c8, 0x996fb924, 0x27ae41e4, 0x649b934c, 0xa495991b, 0x7852b855]) = true := by
  decide +kernel

/-- V22: FINALIZE at the largest TOTAL, two padding blocks. -/
theorem test_step_finalize_largest :
    nextSat (step (withCommand 0x00000003 { fed 63 0 with total := 0xffffffffffffffff }))
      (fun t => statusWord t == 1 && t.total == 0xffffffffffffffff &&
        t.h == #v[0x2e9f81f2, 0x88998625, 0x8eab0262, 0xd3dc8c2c, 0xf92d5365, 0x15ab5785, 0xda8cd896, 0xe0b53be2]) = true := by
  decide +kernel

/-! ### Errors and the host port (V30, V31) -/

/-- V30: an illegal word in FINALIZED records code 1, not a phase error; and FINALIZE there records code 3. -/
theorem test_errors_finalized :
    nextSat (step (withCommand 0x00000013 finished)) (fun t => statusWord t == 0x00000013) = true ∧
    nextSat (step (withCommand 0x00000003 finished)) (fun t => statusWord t == 0x00000033) = true := by decide

/-- V30: an illegal INIT does not clear ERR. -/
theorem test_illegal_init_keeps_error :
    nextSat (step (withCommand 0x80000001 failed)) (fun t => statusWord t == 0x00000012) = true := by decide

/-- V31: reads that return a value. -/
theorem test_reads :
    memRead 0x04 .four { State.reset with data := 0x61626300 } = .ok 0x61626300 ∧
    memRead 0x08 .four State.reset = .ok 0 ∧ memRead 0x0C .four State.reset = .ok 0 ∧
    memRead 0x10 .four { State.reset with total := 0x0000000100000003 } = .ok 1 ∧
    memRead 0x20 .four State.reset = .ok 0x6a09e667 ∧ memRead 0x3C .four State.reset = .ok 0x5be0cd19 := by decide

/-- V31: reads that are bus errors, with the order of the checks. -/
theorem test_read_bus_errors :
    memRead 0x00 .four State.reset = .error .readWo ∧ memRead 0x14 .four State.reset = .error .unmapped ∧
    memRead 0x40 .four State.reset = .error .unmapped ∧ memRead 0x06 .four State.reset = .error .misaligned ∧
    memRead 0x15 .four State.reset = .error .misaligned ∧ memRead 0x04 .one State.reset = .error .width ∧
    memRead 0x15 .two State.reset = .error .width := by decide

/-- V31: writes that are bus errors, with the order of the checks. -/
theorem test_write_bus_errors :
    faultOf (memWrite 0x08 .four 0xffffffff State.reset) = some (.busError 0x08 .writeRo) ∧
    faultOf (memWrite 0x0C .four 1 State.reset) = some (.busError 0x0C .writeRo) ∧
    faultOf (memWrite 0x3C .four 0 State.reset) = some (.busError 0x3C .writeRo) ∧
    faultOf (memWrite 0x1C .four 0 State.reset) = some (.busError 0x1C .unmapped) ∧
    faultOf (memWrite 0xFC .four 0 State.reset) = some (.busError 0xFC .unmapped) ∧
    faultOf (memWrite 0x01 .four 0x12 State.reset) = some (.busError 0x01 .misaligned) ∧
    faultOf (memWrite 0x00 .two 0x32 State.reset) = some (.busError 0x00 .width) ∧
    faultOf (memWrite 0x01 .one 0 State.reset) = some (.busError 0x01 .width) := by decide

/-- V31: a write of DATA completes. -/
theorem test_write_data :
    nextSat (memWrite 0x04 .four 0x12345678 State.reset)
      (fun t => t.data == 0x12345678 && statusWord t == 0 && t.total == 0) = true := by decide

/-- Two instances, at 0x1000 and 0x1200 (R33). -/
def twoInstances : Platform := [{ base := 0x1000, inst := State.reset }, { base := 0x1200, inst := State.reset }]

/-- The DATA registers of a platform after an access; none after a fault. -/
def dataAfter (a : HostAccess) (p : Platform) : Option (List Word) :=
  match platformAccess a p with
  | .next q => some (q.map fun s => s.inst.data)
  | .fault _ => none
  | .refused _ => none

/-- R33: an access reaches the instance whose window holds its address, and no other. -/
theorem test_platform :
    dataAfter { master := 0, addr := 0x1204, width := .four, op := .write 7 } twoInstances = some [0, 7] ∧
    dataAfter { master := 0, addr := 0x1004, width := .four, op := .write 7 } twoInstances = some [7, 0] ∧
    dataAfter { master := 0, addr := 0x1308, width := .four, op := .write 7 } twoInstances = some [0, 0] := by decide

/-! ### Host scripts (R53, P2, P3) -/

/-- P2, with its comment. -/
theorem test_script_text :
    parseScript "WR DATA, 0x61626300 ; 'a' 'b' 'c'\nUPDATE 3\n\nFINALIZE\nRDDIGEST".toList =
      some [.wr .data 0x61626300, .update 3, .finalize, .rddigest] := by decide +kernel

/-- P3 and the text forms of PUSHSTR and HASH. -/
theorem test_script_push :
    parseScript "PUSH 0x62, 99\nPUSHSTR \"ab;c\"\nHASH \"\"\nRD DIGEST7".toList =
      some [.push [0x62, 0x63], .pushstr [0x61, 0x62, 0x3b, 0x63], .hash [], .rd (.digest 7)] := by decide +kernel

/-- Text that is no statement: UPDATE 5, an unknown register, an unclosed text. -/
theorem test_script_rejects :
    parseScript "UPDATE 5".toList = none ∧ parseScript "RD DIGEST8".toList = none ∧
    parseScript "HASH \"abc".toList = none := by decide +kernel

/-- R53: PUSH of two bytes, PUSHSTR of five, and the empty text. -/
theorem test_script_expansion :
    (Stmt.push [0x62, 0x63]).expand = some [.wr .data 0x62630000, .wr .cmd 0x00000022] ∧
    (Stmt.pushstr [1, 2, 3, 4, 5]).expand =
      some [.wr .data 0x01020304, .wr .cmd 0x00000042, .wr .data 0x05000000, .wr .cmd 0x00000012] ∧
    (Stmt.pushstr []).expand = some [] ∧ (Stmt.push []).expand = none := by decide

/-- R53 and P2: the result of RDDIGEST begins with the bytes of its first word. -/
theorem test_digest_result :
    (digestResult [0xba7816bf, 0x8f01cfea]) = [0xba, 0x78, 0x16, 0xbf, 0x8f, 0x01, 0xcf, 0xea] := by decide

/-! ### withFetchWord -/

/-- The step after `withFetchWord` runs the placed word, from reset. -/
theorem test_fetch_word :
    nextSat (step (State.reset.withFetchWord 32 0x32)) (fun t => t.total == 3) = true ∧
    nextSat (step (State.reset.withFetchWord 32 0x52)) (fun t => t.err) = true := by decide +kernel

/-! ### Witnesses

One theorem for the hypotheses of every statement that has some, and for every clause at a boundary of its range. -/

/-- The event of a CMD write. -/
def cmdEvent (v : Word) : Event := .access (commandWrite 0 v)

/-- The event of a write of DATA. -/
def dataEvent (v : Word) : Event := .access { master := 0, off := 0x04, width := .four, op := .write v }

/-- The event of a read at an offset. -/
def readEvent (off : Offset) : Event := .access { master := 0, off := off, width := .four, op := .read }

/-! DecodeEncodeAgree, IllegalWordRecordsError -/

theorem witness_decodeEncode : decode 0x00000042 = .ok .update4 ∧ (CommandFields.mk 2 4 0).wellFormed = true := by decide

theorem witness_illegal_reservedOp :
    4 ≤ ((0x00000004 : Word).extractLsb' 0 4).toNat ∧ 4 ≤ ((0x0000000f : Word).extractLsb' 0 4).toNat := by decide

theorem witness_illegal_updateCount :
    ((0x00000052 : Word).extractLsb' 0 4 = 2 ∧ 5 ≤ ((0x00000052 : Word).extractLsb' 4 3).toNat) ∧
    ((0x00000072 : Word).extractLsb' 0 4 = 2 ∧ 5 ≤ ((0x00000072 : Word).extractLsb' 4 3).toNat) := by decide

theorem witness_illegal_strayCount :
    ((0x00000010 : Word).extractLsb' 0 4 = 0 ∧ (0x00000010 : Word).extractLsb' 4 3 ≠ 0) ∧
    ((0x00000011 : Word).extractLsb' 0 4 = 1 ∧ (0x00000011 : Word).extractLsb' 4 3 ≠ 0) ∧
    ((0x00000073 : Word).extractLsb' 0 4 = 3 ∧ (0x00000073 : Word).extractLsb' 4 3 ≠ 0) := by decide

theorem witness_illegal_reservedBits :
    (0x00000080 : Word).extractLsb' 7 25 ≠ 0 ∧ (0x80000000 : Word).extractLsb' 7 25 ≠ 0 := by decide

/-! StepRunsDecodedCommand, StepTakesOldestEvent, StepStopsOnlyOnBusError -/

theorem witness_stepRuns :
    (withCommand 0x00000042 State.reset).inbox = .access (commandWrite 0 0x00000042) :: [] ∧
    decode 0x00000042 = .ok .update4 := by decide

theorem witness_stepRuns_fetchWord : decodeTableWord 32 0x00000003 = some .finalize := by decide

theorem witness_stepTakes : ∃ t, step (withEvent (dataEvent 7) State.reset) = .next t := ⟨_, rfl⟩

theorem witness_stepTakes_idle : State.reset.inbox = [] := rfl

/-- An access that is not legal, and one that is. -/
theorem witness_stepStops :
    ∃ a b : Access, (withEvent (.access a) State.reset).inbox.head? = some (.access a) ∧ a.legal = false ∧
      (withEvent (.access b) State.reset).inbox.head? = some (.access b) ∧ b.legal = true :=
  ⟨{ master := 0, off := 0x3C, width := .four, op := .write 0 }, { master := 0, off := 0x3C, width := .four, op := .read },
    rfl, rfl, rfl, rfl⟩

/-! ReadHasNoSideEffect, CommandWriteAlwaysCompletes, HardwareResetRestoresState -/

theorem witness_read : ∃ t, (withEvent (readEvent 0x20) State.reset).inbox = readEvent 0x20 :: [] ∧
    step (withEvent (readEvent 0x20) State.reset) = .next t := ⟨_, rfl, rfl⟩

/-- An illegal word is a CMD write too. -/
theorem witness_commandWrite :
    (withCommand 0xffffffff State.reset).inbox = .access (commandWrite 0 0xffffffff) :: [] := rfl

theorem witness_reset :
    (withEvent (.reset none) failed).inbox = .reset none :: [] ∧
    (withEvent (.reset (some (commandWrite 0 0x00000003))) failed).inbox =
      .reset (some (commandWrite 0 0x00000003)) :: [] := ⟨rfl, rfl⟩

/-! The commands -/

theorem witness_updateZero : (fed 63 0).err = false ∧ (fed 63 0).phase = .accepting := by decide

/-- For each UPDATE, the largest FILL of the first case. -/
theorem witness_updateAppends :
    (fed 63 0).fill.toNat + 0 < 64 ∧ (fed 62 0).fill.toNat + 1 < 64 ∧ (fed 61 0).fill.toNat + 2 < 64 ∧
    (fed 60 0).fill.toNat + 3 < 64 ∧ (fed 59 0).fill.toNat + 4 < 64 ∧
    ∀ f ∈ [63, 62, 61, 60, 59], (fed f 0).err = false ∧ (fed f 0).phase = .accepting := by decide

/-- For each UPDATE, the least FILL of the second case, and the largest. -/
theorem witness_updateCompresses :
    64 ≤ (fed 63 0).fill.toNat + 1 ∧ 64 ≤ (fed 62 0).fill.toNat + 2 ∧ 64 ≤ (fed 61 0).fill.toNat + 3 ∧
    64 ≤ (fed 60 0).fill.toNat + 4 ∧ 64 ≤ (fed 63 0).fill.toNat + 4 ∧
    (∀ f ∈ [63, 62, 61, 60], (fed f 0).err = false ∧ (fed f 0).phase = .accepting) ∧
    ∃ S : List Byte, S = [(fed 63 0).data.extractLsb' 24 8, (fed 63 0).data.extractLsb' 16 8,
      (fed 63 0).data.extractLsb' 8 8, (fed 63 0).data.extractLsb' 0 8].take 1 := by
  refine ⟨by decide, by decide, by decide, by decide, by decide, by decide, _, rfl⟩

/-- Messages that close in one block and in two. -/
theorem witness_finalize :
    ∀ f ∈ [0, 55, 56, 63], (fed f 0).err = false ∧ (fed f 0).phase = .accepting ∧
      (fed f 0).fill.toNat = (fed f 0).total.toNat % 64 := by decide

theorem witness_paddingCheck_passes :
    (fed 56 0).err = false ∧ (fed 56 0).phase = .accepting ∧ (fed 56 0).fill.toNat = (fed 56 0).total.toNat % 64 := by decide

/-- A state no run reaches, with FILL ahead of TOTAL. -/
theorem witness_paddingCheck_fails :
    ({ fed 1 0 with total := 0 } : State).err = false ∧ ({ fed 1 0 with total := 0 } : State).phase = .accepting ∧
    ({ fed 1 0 with total := 0 } : State).fill.toNat ≠ ({ fed 1 0 with total := 0 } : State).total.toNat % 64 := by decide

/-- The longest padding, with its first and its last zero byte (V4, row 56). -/
theorem witness_paddingContents :
    448 = (56#64).toNat * 8 % 2 ^ 64 ∧ 576 = (if 512 - 448 % 512 < 65 then 512 - 448 % 512 + 512 else 512 - 448 % 512) ∧
    0 < 1 ∧ 1 + 8 < (padding 56).length ∧ 0 < 63 ∧ 63 + 8 < (padding 56).length := by decide

/-! Errors and the lifecycle -/

theorem witness_ignored :
    failed.err = true ∧ (0x00000002 : Word) ≠ 0x00000000 ∧ (0x00000002 : Word) ≠ 0x00000001 := by decide

theorem witness_firstError : State.reset.err = false ∧ failed.err = true := by decide

theorem witness_spent : finished.err = false ∧ finished.phase = .finalized ∧
    Instr.update0 ∈ [Instr.update0, .update1, .update2, .update3, .update4] ∧
    Instr.update4 ∈ [Instr.update0, .update1, .update2, .update3, .update4] := by decide

/-- FINALIZED to ACCEPTING by INIT and by reset. -/
theorem witness_spent_left :
    (∃ t, step (withCommand 0x00000001 finished) = .next t ∧
      (withCommand 0x00000001 finished).phase = .finalized ∧ t.phase = .accepting) ∧
    (∃ t, step (withEvent (.reset none) finished) = .next t ∧
      (withEvent (.reset none) finished).phase = .finalized ∧ t.phase = .accepting) :=
  ⟨⟨_, rfl, rfl, rfl⟩, ⟨_, rfl, rfl, rfl⟩⟩

/-- The first clause: an error that stays, one that INIT clears and one that reset clears. -/
theorem witness_sticky_set :
    (∃ t, step (withCommand 0x00000002 failed) = .next t ∧ (withCommand 0x00000002 failed).err = true) ∧
    (∃ t, step (withCommand 0x00000001 failed) = .next t ∧ (withCommand 0x00000001 failed).err = true) ∧
    (∃ t, step (withEvent (.reset none) failed) = .next t ∧ (withEvent (.reset none) failed).err = true) :=
  ⟨⟨_, rfl, rfl⟩, ⟨_, rfl, rfl⟩, ⟨_, rfl, rfl⟩⟩

/-- The second clause: an error that appears. -/
theorem witness_sticky_clear :
    ∃ t, step (withCommand 0x00000052 State.reset) = .next t ∧ (withCommand 0x00000052 State.reset).err = false ∧
      t.err = true := ⟨_, rfl, rfl, rfl⟩

/-- H changed by reset and by INIT. -/
theorem witness_hashWriters_fresh :
    (∃ t, step (withEvent (.reset none) { finished with h := abcDigest }) = .next t ∧
      t.h ≠ ({ finished with h := abcDigest } : State).h) ∧
    (∃ t, step (withCommand 0x00000001 { finished with h := abcDigest }) = .next t ∧
      t.h ≠ ({ finished with h := abcDigest } : State).h) :=
  ⟨⟨_, rfl, by decide⟩, ⟨_, rfl, by decide⟩⟩

/-- H changed by FINALIZE and by the UPDATE that completes a block. -/
theorem witness_hashWriters_compress :
    (∃ t, step (withCommand 0x00000003 State.reset) = .next t ∧ (t.h != State.reset.h) = true) ∧
    (∃ t, step (withCommand 0x00000012 (fed 63 0)) = .next t ∧ (t.h != (fed 63 0).h) = true) :=
  ⟨exists_of_nextSat (p := fun t => t.h != State.reset.h) (by decide +kernel),
    exists_of_nextSat (p := fun t => t.h != (fed 63 0).h) (by decide +kernel)⟩

/-- PHASE changed by FINALIZE, by INIT and by reset. -/
theorem witness_phaseWriters :
    (∃ t, step (withCommand 0x00000003 State.reset) = .next t ∧ (t.phase != State.reset.phase) = true) ∧
    (∃ t, step (withCommand 0x00000001 finished) = .next t ∧ t.phase ≠ finished.phase) ∧
    (∃ t, step (withEvent (.reset none) finished) = .next t ∧ t.phase ≠ finished.phase) :=
  ⟨exists_of_nextSat (p := fun t => t.phase != State.reset.phase) (by decide +kernel), ⟨_, rfl, by decide⟩,
    ⟨_, rfl, by decide⟩⟩

/-- TOTAL changed by UPDATE 1 and UPDATE 4, by INIT and by reset. -/
theorem witness_totalWriters :
    (∃ t, step (withCommand 0x00000012 State.reset) = .next t ∧ (t.total != State.reset.total) = true) ∧
    (∃ t, step (withCommand 0x00000042 State.reset) = .next t ∧ (t.total != State.reset.total) = true) ∧
    (∃ t, step (withCommand 0x00000001 (fed 3 0)) = .next t ∧ t.total ≠ (fed 3 0).total) ∧
    (∃ t, step (withEvent (.reset none) (fed 3 0)) = .next t ∧ t.total ≠ (fed 3 0).total) :=
  ⟨exists_of_nextSat (p := fun t => t.total != State.reset.total) (by decide +kernel),
    exists_of_nextSat (p := fun t => t.total != State.reset.total) (by decide +kernel), ⟨_, rfl, by decide⟩,
    ⟨_, rfl, by decide⟩⟩

/-- DATA changed by a host write and by reset. -/
theorem witness_dataWriters :
    (∃ t, step (withEvent (dataEvent 7) State.reset) = .next t ∧ t.data ≠ State.reset.data) ∧
    (∃ t, step (withEvent (.reset none) (fed 0 7)) = .next t ∧ t.data ≠ (fed 0 7).data) :=
  ⟨⟨_, rfl, by decide⟩, ⟨_, rfl, by decide⟩⟩

/-! The engine -/

/-- The least and the greatest amount, at the least and the greatest bit. -/
theorem witness_rotr : (0 < 1 ∧ 1 < 32 ∧ 0 < 32) ∧ (0 < 31 ∧ 31 < 32 ∧ 31 < 32) := by decide

theorem witness_sigmas : 0 < 32 ∧ 31 < 32 := by decide

theorem witness_chooseMajority : 0 < 32 ∧ 31 < 32 := by decide

theorem witness_round : 0 < 64 ∧ 63 < 64 := by decide

theorem witness_schedule : (0 < 16 ∧ 15 < 16) ∧ (16 ≤ 16 ∧ 16 < 64) ∧ (16 ≤ 63 ∧ 63 < 64) := by decide

theorem witness_sequencer : (0 ≤ 64 ∧ 64 ≤ 64) ∧ (15 < 64 ∧ (15 < 16 ∨ 15 < 0)) ∧ (63 < 64 ∧ (63 < 16 ∨ 63 < 64)) := by
  decide

theorem witness_window : 0 < 64 ∧ 63 < 64 := by decide

/-! Messages -/

/-- "abc" in one span and in two (P2, P3). -/
theorem witness_streaming :
    State.reset.err = false ∧ State.reset.phase = .accepting ∧
    fedBytes [(3, 0x61626300)] = fedBytes [(1, 0x61000000), (2, 0x62630000)] := by decide

theorem witness_fresh : State.reset.Fresh := ⟨rfl, rfl, rfl, rfl, rfl, rfl⟩

theorem witness_digest : State.reset.Fresh ∧ fedCount [(3, 0x61626300), (0, 0)] < 2 ^ 61 := ⟨witness_fresh, by decide⟩

theorem witness_hash : ([0x61, 0x62, 0x63] : List Byte).length < 2 ^ 61 := by decide

/-! Whole-machine properties -/

theorem witness_invariant :
    (withCommand 0x00000001 State.reset).Inv ∧ ∃ t, step (withCommand 0x00000001 State.reset) = .next t :=
  ⟨⟨by decide, by decide, by decide, by decide, rfl, rfl⟩, _, rfl⟩

/-- Two states that differ in BUF, W and `a..h` only. -/
theorem witness_undefined :
    SameDefined State.reset { State.reset with buf := aBlock, w := Vector.replicate 64 1, work := loadWork ivRom } ∧
    State.reset ≠ { State.reset with buf := aBlock, w := Vector.replicate 64 1, work := loadWork ivRom } :=
  ⟨⟨rfl, by decide, rfl, rfl, rfl, rfl, rfl, rfl, rfl, rfl, rfl, rfl⟩, by decide⟩

theorem witness_master : ∃ t, serveAccess (commandWrite 1 0x00000001) State.reset = .next t := ⟨_, rfl⟩

theorem witness_platform_wellFormed : Platform.WellFormed twoInstances := by decide

/-- An access inside a window, and the first address beyond it. -/
theorem witness_instances :
    (∃ q, platformAccess { master := 0, addr := 0x1204, width := .four, op := .write 7 } twoInstances = .next q) ∧
    (∃ q, platformAccess { master := 0, addr := 0x1300, width := .four, op := .write 7 } twoInstances = .next q) ∧
    ¬ (0x1200 ≤ 0x1300 ∧ 0x1300 < 0x1200 + 256) ∧ ¬ (0x1000 ≤ 0x1204 ∧ 0x1204 < 0x1000 + 256) ∧
    (0x1200 ≤ 0x1204 ∧ 0x1204 < 0x1200 + 256) :=
  ⟨⟨_, rfl⟩, ⟨_, rfl⟩, by decide, by decide, by decide⟩

end Sys2Proof.Tests
end

section
/-! Word operators and byte order (spec/00_scope.md R8, R9): what a bit of `rotr` and `shr` is, and what the bytes of
`be32`, `bytesBe32` and `bytesBe64` are. -/

namespace Sys2Proof.Machine

/-! ### Shift and rotate -/

@[simp] theorem getLsbD_shr (x : Word) (n i : Nat) :
    (shr x n).getLsbD i = (decide (i + n ≤ 31) && x.getLsbD (i + n)) := by
  rw [shr, BitVec.getLsbD_ushiftRight, Nat.add_comm n i]
  by_cases h : i + n ≤ 31
  · simp [h]
  · have hzero : x.getLsbD (i + n) = false := BitVec.getLsbD_of_ge x _ (by omega)
    simp [hzero]

/-- The model's rotation is the library's, for the amounts R8 speaks of. -/
theorem rotr_eq_rotateRight (x : Word) {n : Nat} (hn : n < 32) : rotr x n = x.rotateRight n := by
  rw [rotr, BitVec.rotateRight_def, Nat.mod_eq_of_lt hn]

@[simp] theorem getLsbD_rotr (x : Word) {n i : Nat} (hn : n < 32) (hi : i < 32) :
    (rotr x n).getLsbD i = x.getLsbD ((i + n) % 32) := by
  rw [rotr_eq_rotateRight x hn, BitVec.getLsbD_rotateRight_of_lt hn]
  by_cases h : i < 32 - n
  · have hmod : (i + n) % 32 = n + i := by omega
    simp [h, hmod]
  · have hmod : (i + n) % 32 = i - (32 - n) := by omega
    simp [h, hi, hmod]

/-! ### Words and bytes -/

/-- Appending on the right is positional notation in base `2 ^ n`. -/
theorem toNat_append_eq_add {m n : Nat} (x : BitVec m) (y : BitVec n) :
    (x ++ y).toNat = x.toNat * 2 ^ n + y.toNat := by
  rw [BitVec.toNat_append, ← Nat.shiftLeft_add_eq_or_of_lt y.isLt, Nat.shiftLeft_eq]

/-- R9's defining equation. -/
theorem toNat_be32 (b0 b1 b2 b3 : Byte) :
    (be32 b0 b1 b2 b3).toNat = b0.toNat * 2 ^ 24 + b1.toNat * 2 ^ 16 + b2.toNat * 2 ^ 8 + b3.toNat := by
  simp only [be32, toNat_append_eq_add]
  omega

/-- A word's bytes, read back as a big-endian word, are the word. -/
@[simp] theorem be32_extractLsb' (w : Word) :
    be32 (w.extractLsb' 24 8) (w.extractLsb' 16 8) (w.extractLsb' 8 8) (w.extractLsb' 0 8) = w := by
  apply BitVec.eq_of_toNat_eq
  simp only [toNat_be32, BitVec.extractLsb'_toNat, Nat.shiftRight_eq_div_pow]
  omega

/-- The sum of R9 has the four bytes as its digits in base 256. -/
@[simp] theorem bytesBe32_be32 (b0 b1 b2 b3 : Byte) : bytesBe32 (be32 b0 b1 b2 b3) = [b0, b1, b2, b3] := by
  simp only [bytesBe32, List.cons.injEq, ← BitVec.toNat_inj, BitVec.extractLsb'_toNat, toNat_be32,
    Nat.shiftRight_eq_div_pow, and_true]
  omega

/-- A field of a field of `v` is a field of `v`. -/
theorem extractLsb'_extractLsb' {w : Nat} (v : BitVec w) {start len start' len' : Nat} (h : start + len ≤ len') :
    (v.extractLsb' start' len').extractLsb' start len = v.extractLsb' (start' + start) len := by
  ext i hi
  have hlt : start + i < len' := by omega
  simp [hlt, Nat.add_assoc]

theorem bytesBe64_eq (v : BitVec 64) :
    bytesBe64 v = [v.extractLsb' 56 8, v.extractLsb' 48 8, v.extractLsb' 40 8, v.extractLsb' 32 8,
      v.extractLsb' 24 8, v.extractLsb' 16 8, v.extractLsb' 8 8, v.extractLsb' 0 8] := by
  simp [bytesBe64, bytesBe32, extractLsb'_extractLsb']

@[simp] theorem length_bytesBe64 (v : BitVec 64) : (bytesBe64 v).length = 8 := by
  rw [bytesBe64_eq]
  rfl

theorem getElem?_bytesBe64 (v : BitVec 64) (j : Fin 8) :
    (bytesBe64 v)[j.val]? = some (v.extractLsb' (56 - 8 * j.val) 8) := by
  rw [bytesBe64_eq]
  fin_cases j <;> rfl

/-- Settles O14: `toNat_be32` fixes `be32` as a sum, and both inverses and the bytes of a 64-bit value follow. -/
theorem bytesAreBigEndian : Obligations.BytesAreBigEndian :=
  ⟨fun b0 b1 b2 b3 => ⟨toNat_be32 b0 b1 b2 b3, bytesBe32_be32 b0 b1 b2 b3⟩,
    fun w => ⟨_, _, _, _, rfl, be32_extractLsb' w⟩,
    fun v => ⟨length_bytesBe64 v, getElem?_bytesBe64 v⟩⟩

/-- Settles O35, bit by bit from the library's facts on shifts and rotations. -/
theorem rotrAndShrBits : Obligations.RotrAndShrBits :=
  fun x n i _ hn hi => ⟨getLsbD_rotr x hn hi, getLsbD_shr x n i⟩

end Sys2Proof.Machine
end

section
/-! The compression sequencer, micro-step by micro-step, computes the compression function (spec/42_compression.md R77,
R78), so the schedule words and working registers it starts from do not show in H (spec/10_state.md R21, R22). -/

namespace Sys2Proof.Machine

/-! ### The schedule -/

/-- A word of the finished schedule is there as soon as its step is done. -/
theorem schedule_get (B : Vector Byte 64) (k : Nat) (hk : k ≤ 64) (j : Nat) (hj : j < 64) (h : j < 16 ∨ j < k) :
    (schedule B)[j] = (scheduleUpTo (loadBlock B (Vector.replicate 64 0)) k)[j] := by
  have hend : k + (64 - k) = 64 := by omega
  rw [schedule, ← scheduleUpTo_stable _ k (64 - k) (by omega) j hj h]
  simp only [hend]

theorem schedule_get_of_lt (B : Vector Byte 64) (t : Nat) (ht : t < 16) : (schedule B)[t] = blockWord B ⟨t, ht⟩ := by
  rw [schedule_get B 0 (by omega) t (by omega) (.inl ht)]
  exact loadBlock_get B _ t ht

/-- The recurrence of R69 on the finished schedule. -/
theorem schedule_get_of_ge (B : Vector Byte 64) (t : Nat) (ht : 16 ≤ t) (ht' : t < 64) :
    (schedule B)[t] =
      (schedule B)[t - 16] + sigma0 (schedule B)[t - 15] + (schedule B)[t - 7] + sigma1 (schedule B)[t - 2] := by
  have earlier (k : Nat) (hk : 0 < k ∧ k ≤ 16) := schedule_get B t (by omega) (t - k) (by omega) (by omega)
  rw [schedule_get B (t + 1) (by omega) t ht' (by omega), scheduleUpTo, expandStep_get _ t t ht' ht',
    dif_pos ⟨ht, rfl⟩, earlier 16 (by omega), earlier 15 (by omega), earlier 7 (by omega), earlier 2 (by omega)]

/-- The words the load does not write are written before they are read: after k steps the schedule holds the block's
words, whatever it held before the load. -/
theorem scheduleUpTo_loadBlock_get (B : Vector Byte 64) (W : Vector Word 64) (k : Nat) (hk : k ≤ 64) (j : Nat)
    (hj : j < 64) (h : j < 16 ∨ j < k) : (scheduleUpTo (loadBlock B W) k)[j] = (schedule B)[j] := by
  induction k generalizing j with
  | zero =>
    have h16 : j < 16 := by omega
    exact (loadBlock_get B W j h16).trans (schedule_get_of_lt B j h16).symm
  | succ k ih =>
    rw [scheduleUpTo, expandStep_get _ k j (by omega) hj]
    split
    next hjk =>
      obtain ⟨hk16, rfl⟩ := hjk
      rw [schedule_get_of_ge B j hk16 hj]
      simp only [ih (by omega) (j - 16) (by omega) (by omega), ih (by omega) (j - 15) (by omega) (by omega),
        ih (by omega) (j - 7) (by omega) (by omega), ih (by omega) (j - 2) (by omega) (by omega)]
    next hjk => exact ih (by omega) j hj (by omega)

/-! ### The sequencer -/

/-- The state of the sequencer after k of the 64 rounds of block `X` (R77), started with hash state `H` and stale schedule
`W`. -/
structure AtRound (X : Vector Byte 64) (H : Vector Word 8) (W : Vector Word 64) (k : Nat) (s : State) : Prop where
  h : s.h = H
  w : s.w = scheduleUpTo (loadBlock X W) k
  work : s.work = roundsUpTo (schedule X) (loadWork H) k
  t : s.t.toNat = k
  seq : s.seq = if k = 64 then .fold else .round

theorem seqStart_atRound (X : Vector Byte 64) (s : State) : AtRound X s.h s.w 0 (seqStart X s) := by
  constructor <;> simp [seqStart, scheduleUpTo, roundsUpTo]

/-- One ROUND micro-step is one schedule step and one round of R74. -/
theorem seqStep_atRound {X : Vector Byte 64} {H : Vector Word 8} {W : Vector Word 64} {k : Nat} {s : State}
    (hk : k < 64) (hs : AtRound X H W k s) : AtRound X H W (k + 1) (seqStep s) := by
  have hround : s.seq = .round := by rw [hs.seq, if_neg (by omega)]
  have hindex : roundIndex s.t = index64 k := by rw [roundIndex, hs.t]
  have hcount : (s.t + 1).toNat = k + 1 := by
    rw [BitVec.toNat_add, hs.t]
    exact Nat.mod_eq_of_lt (by simp; omega)
  have hword : (scheduleUpTo (loadBlock X W) (k + 1))[index64 k] = (schedule X)[index64 k] :=
    scheduleUpTo_loadBlock_get X W (k + 1) (by omega) _ (index64 k).isLt (.inr (by rw [index64_val hk]; omega))
  have hlast : s.t + 1 = 64 ↔ k + 1 = 64 := by rw [← hcount, ← BitVec.toNat_inj]; rfl
  rw [scheduleUpTo] at hword
  simp only [seqStep, hround, seqRound]
  constructor
  case h => simp [hs.h]
  case w => simp [hs.w, hindex, scheduleUpTo]
  case work => simp only [State.setSeq_work, State.setEngine_work, roundsUpTo, hs.work, hs.w, hindex, hword]
  case t => exact hcount
  case seq => simp only [State.setSeq_seq, hlast]

theorem seqRun_atRound (X : Vector Byte 64) (s : State) (k : Nat) (hk : k ≤ 64) :
    AtRound X s.h s.w k (seqRun k (seqStart X s)) := by
  induction k with
  | zero => exact seqStart_atRound X s
  | succ k ih =>
    rw [seqRun_succ]
    exact seqStep_atRound (by omega) (ih (by omega))

/-- START, 64 rounds, FOLD (R77), and the free values of W and `a..h` after it. -/
theorem compressBlock_eq (X : Vector Byte 64) (s : State) :
    compressBlock X s = forgetEngine (seqFold (seqRun 64 (seqStart X s))) := by
  have hfold := (seqRun_atRound X s 64 (by omega)).seq
  rw [compressBlock, seqRun_succ, seqStep, hfold]
  rfl

theorem forgetEngine_seqFold_h (s : State) : (forgetEngine (seqFold s)).h = foldBack s.h s.work := rfl
theorem forgetEngine_seqFold_seq (s : State) : (forgetEngine (seqFold s)).seq = .idle := rfl
theorem forgetEngine_seqFold_t (s : State) : (forgetEngine (seqFold s)).t = 0 := rfl

/-- R78: the hash state after a block is `Compress` of the one before. -/
@[simp] theorem compressBlock_h (X : Vector Byte 64) (s : State) : (compressBlock X s).h = compress s.h X := by
  have hrun := seqRun_atRound X s 64 (by omega)
  rw [compressBlock_eq, forgetEngine_seqFold_h, hrun.h, hrun.work, compress]

@[simp] theorem compressBlock_seq (X : Vector Byte 64) (s : State) : (compressBlock X s).seq = .idle := by
  rw [compressBlock_eq, forgetEngine_seqFold_seq]

@[simp] theorem compressBlock_t (X : Vector Byte 64) (s : State) : (compressBlock X s).t = 0 := by
  rw [compressBlock_eq, forgetEngine_seqFold_t]

/-! ### A stream of blocks -/

@[simp] theorem compressStream_h (n : Nat) (X : List Byte) (s : State) :
    (compressStream n X s).h = hashBlocks n X s.h := by
  induction n generalizing X s with
  | zero => rfl
  | succ n ih => simp [compressStream, hashBlocks, ih]

theorem compressStream_seq {n : Nat} (hn : n ≠ 0) (X : List Byte) (s : State) : (compressStream n X s).seq = .idle := by
  induction n generalizing X s with
  | zero => contradiction
  | succ n ih =>
    cases n with
    | zero => exact compressBlock_seq _ s
    | succ n => exact ih (by omega) _ _

theorem compressStream_t {n : Nat} (hn : n ≠ 0) (X : List Byte) (s : State) : (compressStream n X s).t = 0 := by
  induction n generalizing X s with
  | zero => contradiction
  | succ n ih =>
    cases n with
    | zero => exact compressBlock_t _ s
    | succ n => exact ih (by omega) _ _

end Sys2Proof.Machine
end

section
/-! What Absorb leaves (spec/41_buffer_manager.md R59), as functions of FILL, the buffered bytes, the bytes absorbed and H:
BUF[FILL..63], W and `a..h` do not show (spec/10_state.md R13). -/

namespace Sys2Proof.Machine

/-- R59: an empty sequence, the append case, and the case that completes blocks. -/
theorem absorb_cases (S : List Byte) (s : State) :
    (S = [] ∧ absorb S s = s) ∨
    (s.fill.toNat + S.length < 64 ∧ absorb S s = forgetTail (absorbAppend S s)) ∨
    (64 ≤ s.fill.toNat + S.length ∧ absorb S s = forgetTail (absorbBlocks S s)) := by
  unfold absorb
  by_cases hS : S = []
  · exact .inl ⟨hS, if_pos hS⟩
  · by_cases hn : s.fill.toNat + S.length < 64
    · exact .inr (.inl ⟨hn, by rw [if_neg hS, if_pos hn]⟩)
    · exact .inr (.inr ⟨by omega, by rw [if_neg hS, if_neg hn]⟩)

@[simp] theorem forgetTail_h (s : State) : (forgetTail s).h = s.h := by simp [forgetTail]
@[simp] theorem forgetTail_fill (s : State) : (forgetTail s).fill = s.fill := by simp [forgetTail]
@[simp] theorem forgetTail_seq (s : State) : (forgetTail s).seq = s.seq := by simp [forgetTail]
@[simp] theorem forgetTail_t (s : State) : (forgetTail s).t = s.t := by simp [forgetTail]

/-! ### FILL and the buffered bytes -/

/-- The bytes up to the end of a write are those before it and those written. -/
theorem take_writeBytes (buf : Vector Byte 64) (off : Nat) (S : List Byte) (h : off + S.length ≤ 64) :
    (writeBytes buf off S).toList.take (off + S.length) = buf.toList.take off ++ S := by
  apply List.ext_getElem
  · simp
    omega
  · intro j h1 h2
    have hj : j < off + S.length := by simp at h1; omega
    rw [List.getElem_take, Vector.getElem_toList, writeBytes_get _ _ _ _ (by omega), List.getElem_append]
    by_cases hoff : off ≤ j
    · have hmin : min off 64 = off := by omega
      simp [hoff, show j - off < S.length by omega, hmin]
    · simp [hoff, show j < off ∧ j < 64 by omega]

/-- A state whose buffer was written up to its FILL holds the bytes before the write and those written. -/
theorem buffered_setBuf_writeBytes (s : State) (buf : Vector Byte 64) (off : Nat) (S : List Byte) {n : Nat}
    (hn : n = off + S.length) (hlt : n < 64) :
    buffered (s.setBuf (writeBytes buf off S) (BitVec.ofNat 6 n)) = buf.toList.take off ++ S := by
  subst hn
  have hfill : (BitVec.ofNat 6 (off + S.length)).toNat = off + S.length := Nat.mod_eq_of_lt hlt
  rw [buffered, State.setBuf_buf, State.setBuf_fill, hfill, take_writeBytes buf off S (by omega)]

/-- R59: FILL counts the stream modulo 64. -/
theorem absorb_fill (S : List Byte) (s : State) : (absorb S s).fill = BitVec.ofNat 6 (s.fill.toNat + S.length) := by
  rcases absorb_cases S s with ⟨rfl, h⟩ | ⟨_, h⟩ | ⟨_, h⟩
  · simp [h]
  · simp [h, absorbAppend]
  · apply BitVec.eq_of_toNat_eq
    simp [h, absorbBlocks]

/-- R59: the buffer keeps what follows the stream's whole blocks. -/
theorem buffered_absorb (S : List Byte) (s : State) :
    buffered (absorb S s) = (buffered s ++ S).drop ((s.fill.toNat + S.length) / 64 * 64) := by
  have hfill := s.fill.isLt
  rcases absorb_cases S s with ⟨rfl, h⟩ | ⟨hn, h⟩ | ⟨hn, h⟩
  · have hwhole : s.fill.toNat / 64 = 0 := by omega
    simp [h, hwhole]
  · have hwhole : (s.fill.toNat + S.length) / 64 = 0 := by omega
    rw [h, buffered_forgetTail, absorbAppend, buffered_setBuf_writeBytes _ _ _ _ rfl hn, hwhole]
    rfl
  · have hwhole : (s.fill.toNat + S.length) / 64 * 64 =
        (buffered s).length + (S.length - (s.fill.toNat + S.length) % 64) := by
      rw [buffered_length]
      omega
    rw [h, buffered_forgetTail, absorbBlocks,
      buffered_setBuf_writeBytes _ _ _ _ (by rw [List.length_drop]; omega) (by omega), hwhole,
      List.drop_append]
    simp

/-! ### The hash state and the sequencer -/

/-- R59: H is the fold of Compress over the stream's whole blocks. -/
theorem absorb_h (S : List Byte) (s : State) :
    (absorb S s).h = hashBlocks ((s.fill.toNat + S.length) / 64) (buffered s ++ S) s.h := by
  have hfill := s.fill.isLt
  rcases absorb_cases S s with ⟨rfl, h⟩ | ⟨hn, h⟩ | ⟨hn, h⟩
  · have hwhole : s.fill.toNat / 64 = 0 := by omega
    simp [h, hwhole, hashBlocks]
  · simp [h, absorbAppend, Nat.div_eq_of_lt hn, hashBlocks]
  · simp [h, absorbBlocks]

theorem absorb_h_of_lt (S : List Byte) (s : State) (hn : s.fill.toNat + S.length < 64) : (absorb S s).h = s.h := by
  rw [absorb_h, Nat.div_eq_of_lt hn, hashBlocks]

/-- A compression leaves the sequencer idle (R77); with no compression it is not touched. -/
theorem absorb_seq (S : List Byte) (s : State) :
    (absorb S s).seq = if s.fill.toNat + S.length < 64 then s.seq else .idle := by
  have hfill := s.fill.isLt
  rcases absorb_cases S s with ⟨rfl, h⟩ | ⟨hn, h⟩ | ⟨hn, h⟩
  · simp [h, hfill]
  · simp [h, absorbAppend, hn]
  · rw [if_neg (by omega), h]
    simp [absorbBlocks, compressStream_seq (show (s.fill.toNat + S.length) / 64 ≠ 0 by omega)]

theorem absorb_t (S : List Byte) (s : State) :
    (absorb S s).t = if s.fill.toNat + S.length < 64 then s.t else 0 := by
  have hfill := s.fill.isLt
  rcases absorb_cases S s with ⟨rfl, h⟩ | ⟨hn, h⟩ | ⟨hn, h⟩
  · simp [h, hfill]
  · simp [h, absorbAppend, hn]
  · rw [if_neg (by omega), h]
    simp [absorbBlocks, compressStream_t (show (s.fill.toNat + S.length) / 64 ≠ 0 by omega)]

/-! ### What Absorb leaves unchanged, a field a time -/

@[simp] theorem absorb_total (S : List Byte) (s : State) : (absorb S s).total = s.total := (absorb_frame S s).1
@[simp] theorem absorb_phase (S : List Byte) (s : State) : (absorb S s).phase = s.phase := (absorb_frame S s).2.1
@[simp] theorem absorb_err (S : List Byte) (s : State) : (absorb S s).err = s.err := (absorb_frame S s).2.2.1
@[simp] theorem absorb_errCode (S : List Byte) (s : State) : (absorb S s).errCode = s.errCode :=
  (absorb_frame S s).2.2.2.1
@[simp] theorem absorb_data (S : List Byte) (s : State) : (absorb S s).data = s.data := (absorb_frame S s).2.2.2.2.1
@[simp] theorem absorb_inbox (S : List Byte) (s : State) : (absorb S s).inbox = s.inbox :=
  (absorb_frame S s).2.2.2.2.2.1
@[simp] theorem absorb_reply (S : List Byte) (s : State) : (absorb S s).reply = s.reply :=
  (absorb_frame S s).2.2.2.2.2.2

/-! ### The padding -/

theorem lengthBits_mod (T : BitVec 64) : (lengthBits T).toNat % 512 = 8 * (T.toNat % 64) := by
  rw [lengthBits, BitVec.toNat_shiftLeft, Nat.shiftLeft_eq]
  omega

/-- R81: the padding fills one block up to the length field, or two. -/
theorem padBytes_eq (T : BitVec 64) :
    padBytes T = if T.toNat % 64 ≤ 55 then 64 - T.toNat % 64 else 128 - T.toNat % 64 := by
  simp only [padBytes, padBits, lengthBits_mod]
  split <;> split <;> omega

@[simp] theorem length_padding (T : BitVec 64) : (padding T).length = padBytes T := by
  have hlong : 8 ≤ padBytes T := by rw [padBytes_eq]; split <;> omega
  simp [padding]
  omega

/-- R82: the padding completes the last block. -/
theorem padBytes_completes (T : BitVec 64) : (T.toNat % 64 + padBytes T) % 64 = 0 := by
  rw [padBytes_eq]
  split <;> omega

end Sys2Proof.Machine
end

section
/-! What one command word and one step can do: every case with the state it leaves, so that the statements about single
registers are read off case by case (spec/40_command_dispatch.md R54, spec/20_memory.md R42, R43). -/

namespace Sys2Proof.Machine

/-! ### From a decoded instruction back to its word -/

/-- A command word is its three fields (R48). -/
theorem pack_fields (cmd : Word) : (CommandFields.mk (opField cmd) (countField cmd) (rsvField cmd)).pack = cmd := by
  apply BitVec.eq_of_toNat_eq
  simp only [CommandFields.pack, opField, countField, rsvField, toNat_append_eq_add, BitVec.extractLsb'_toNat,
    Nat.shiftRight_eq_div_pow]
  omega

theorem fields_of_updateOfCount {n : BitVec 3} {i : Instr} (h : updateOfCount n = some i) : i.fields = ⟨2, n, 0⟩ := by
  unfold updateOfCount at h
  repeat' split at h
  all_goals cases h
  all_goals simp only [Instr.fields, *]

/-- A word that decodes is the word of its instruction (R51). -/
theorem encode_of_decode {cmd : Word} {i : Instr} (h : decode cmd = .ok i) : encode i = cmd := by
  unfold decode at h
  split at h
  next hcmd => cases h; rw [hcmd]; rfl
  split at h
  next hcmd => cases h; rw [hcmd]; rfl
  split at h
  next hcmd => cases h; rw [hcmd]; rfl
  split at h
  next hfields =>
    obtain ⟨hrsv, hop⟩ := hfields
    split at h
    next j hj =>
      cases h
      rw [encode, fields_of_updateOfCount hj, ← hop, ← hrsv, pack_fields]
    next => cases h
  next => cases h

/-! ### The cases of a command word -/

/-- Everything a command word `v` can do to a state (R54). -/
inductive CommandCase (v : Word) (s t : State) : Prop
  /-- NOP, and what is ignored while ERR = 1. -/
  | skip (ht : t = s)
  /-- A violation is recorded (R88); PADDING_CHECK is not among the codes a rejected command records. -/
  | reject (code : ErrCode) (hnone : code ≠ .none) (hpad : code ≠ .paddingCheck) (he : s.err = false)
      (ht : t = s.setError true code)
  /-- INIT (R57). -/
  | init (hv : v = 0x00000001) (ht : t = initOp s)
  /-- UPDATE n of a message in progress (R61). -/
  | update (n : BitVec 3) (hn : n.toNat ≤ 4) (hv : v = updateWord n.toNat) (he : s.err = false)
      (hp : s.phase = .accepting) (ht : t = (absorb (dataBytes n s.data) s).setTotal (s.total + n.setWidth 64))
  /-- FINALIZE of a message in progress (R83). -/
  | finalize (hv : v = 0x00000003) (he : s.err = false) (hp : s.phase = .accepting)
      (ht : t = (paddingCheck (absorb (padding s.total) s)).setPhase .finalized)

theorem updateOp_commandCase (n : BitVec 3) (hn : n.toNat ≤ 4) (s : State) :
    CommandCase (updateWord n.toNat) s (updateOp n s) := by
  rcases updateOp_cases n s with ⟨_, h⟩ | ⟨he, _, h⟩ | ⟨he, hp, h⟩
  · exact .skip h
  · exact .reject .updateAfterFinalize (by decide) (by decide) he h
  · exact .update n hn rfl he hp h

theorem finalizeOp_commandCase (s : State) : CommandCase 0x00000003 s (finalizeOp s) := by
  rcases finalizeOp_cases s with ⟨_, h⟩ | ⟨he, _, h⟩ | ⟨he, hp, h⟩
  · exact .skip h
  · exact .reject .finalizeAfterFinalize (by decide) (by decide) he h
  · exact .finalize rfl he hp h

theorem illegalOp_commandCase (v : Word) (s : State) : CommandCase v s (illegalOp s) := by
  rcases illegalOp_cases s with ⟨_, h⟩ | ⟨he, h⟩
  · exact .skip h
  · exact .reject .illegalCommand (by decide) (by decide) he h

theorem exec_commandCase {i : Instr} {s t : State} (h : exec i s = .next t) : CommandCase (encode i) s t := by
  cases i <;> cases h
  case nop => exact .skip rfl
  case init => exact .init (by decide) rfl
  case update0 => exact updateOp_commandCase 0 (by decide) s
  case update1 => exact updateOp_commandCase 1 (by decide) s
  case update2 => exact updateOp_commandCase 2 (by decide) s
  case update3 => exact updateOp_commandCase 3 (by decide) s
  case update4 => exact updateOp_commandCase 4 (by decide) s
  case finalize => exact finalizeOp_commandCase s

/-- The inversion of `execute`. -/
theorem execute_commandCase {v : Word} {s t : State} (h : execute v s = .next t) : CommandCase v s t := by
  rcases execute_cases v s with ⟨i, hi, hx⟩ | ⟨_, _, hx⟩
  · rw [← encode_of_decode hi]
    exact exec_commandCase (hx.symm.trans h)
  · cases hx.symm.trans h
    exact illegalOp_commandCase v s

/-! ### The cases of a step -/

/-- What a step that goes on does to the registers, with the event that makes it do so. Every case leaves some events
pending and some answer at the port, and these touch no register. -/
inductive StepEffect (s t : State) : Prop
  /-- No register changes: no event, a read, NOP, an ignored command. -/
  | quiet (rest : List Event) (c : Option Completion) (ht : t = (s.setInbox rest).setReply c)
  /-- The reset input (R99). -/
  | reset (aborted : Option Access) (rest : List Event) (hs : s.inbox.head? = some (.reset aborted))
      (ht : t = resetBlock aborted (s.setInbox rest))
  /-- A host write of DATA (R20). -/
  | data (m : Nat) (v : Word) (rest : List Event) (c : Option Completion)
      (hs : s.inbox.head? = some (.access { master := m, off := 0x04, width := .four, op := .write v }))
      (ht : t = ((s.setInbox rest).setData v).setReply c)
  /-- A violation recorded by a command word (R88). -/
  | reject (m : Nat) (v : Word) (code : ErrCode) (rest : List Event) (c : Option Completion)
      (hs : s.inbox.head? = some (.access (commandWrite m v))) (hnone : code ≠ .none) (hpad : code ≠ .paddingCheck)
      (he : s.err = false) (ht : t = ((s.setInbox rest).setError true code).setReply c)
  /-- INIT (R57). -/
  | init (m : Nat) (rest : List Event) (c : Option Completion)
      (hs : s.inbox.head? = some (.access (commandWrite m 0x00000001)))
      (ht : t = (initOp (s.setInbox rest)).setReply c)
  /-- UPDATE n of a message in progress (R61). -/
  | update (m : Nat) (n : BitVec 3) (rest : List Event) (c : Option Completion) (hn : n.toNat ≤ 4)
      (hs : s.inbox.head? = some (.access (commandWrite m (updateWord n.toNat)))) (he : s.err = false)
      (hp : s.phase = .accepting)
      (ht : t = ((absorb (dataBytes n s.data) (s.setInbox rest)).setTotal (s.total + n.setWidth 64)).setReply c)
  /-- FINALIZE of a message in progress (R83). -/
  | finalize (m : Nat) (rest : List Event) (c : Option Completion)
      (hs : s.inbox.head? = some (.access (commandWrite m 0x00000003))) (he : s.err = false) (hp : s.phase = .accepting)
      (ht : t = ((paddingCheck (absorb (padding s.total) (s.setInbox rest))).setPhase .finalized).setReply c)

theorem step_effect {s t : State} (h : step s = .next t) : StepEffect s t := by
  cases step_cases h with
  | idle _ ht => exact .quiet s.inbox s.reply ht
  | reset aborted rest hs ht => exact .reset aborted rest (by rw [hs]; rfl) ht
  | read a rest v _ _ _ ht => exact .quiet rest _ ht
  | data m v rest hs ht => exact .data m v rest _ (by rw [hs]; rfl) ht
  | command m v rest u hs hx ht =>
    have hhead : s.inbox.head? = some (.access (commandWrite m v)) := by rw [hs]; rfl
    cases execute_commandCase hx with
    | skip hu => subst hu; exact .quiet rest _ ht
    | reject code hnone hpad he hu => subst hu; exact .reject m v code rest _ hhead hnone hpad he ht
    | init hv hu => subst hv hu; exact .init m rest _ hhead ht
    | update n hn hv he hp hu => subst hv hu; exact .update m n rest _ hn hhead he hp ht
    | finalize hv he hp hu => subst hv hu; exact .finalize m rest _ hhead he hp ht

/-! ### The registers after reset, INIT and the padding check -/

section
variable (aborted : Option Access) (s : State)

@[simp] theorem resetBlock_h : (resetBlock aborted s).h = ivRom := rfl
@[simp] theorem resetBlock_fill : (resetBlock aborted s).fill = 0 := rfl
@[simp] theorem resetBlock_total : (resetBlock aborted s).total = 0 := rfl
@[simp] theorem resetBlock_phase : (resetBlock aborted s).phase = .accepting := rfl
@[simp] theorem resetBlock_err : (resetBlock aborted s).err = false := rfl
@[simp] theorem resetBlock_errCode : (resetBlock aborted s).errCode = .none := rfl
@[simp] theorem resetBlock_data : (resetBlock aborted s).data = 0 := rfl
@[simp] theorem resetBlock_seq : (resetBlock aborted s).seq = .idle := rfl
@[simp] theorem resetBlock_t : (resetBlock aborted s).t = 0 := rfl
@[simp] theorem resetBlock_inbox : (resetBlock aborted s).inbox = s.inbox := rfl

@[simp] theorem initOp_h : (initOp s).h = ivRom := rfl
@[simp] theorem initOp_fill : (initOp s).fill = 0 := rfl
@[simp] theorem initOp_total : (initOp s).total = 0 := rfl
@[simp] theorem initOp_phase : (initOp s).phase = .accepting := rfl
@[simp] theorem initOp_err : (initOp s).err = false := rfl
@[simp] theorem initOp_errCode : (initOp s).errCode = .none := rfl
@[simp] theorem initOp_data : (initOp s).data = s.data := rfl
@[simp] theorem initOp_seq : (initOp s).seq = .idle := rfl
@[simp] theorem initOp_t : (initOp s).t = 0 := rfl
@[simp] theorem initOp_inbox : (initOp s).inbox = s.inbox := rfl
@[simp] theorem initOp_reply : (initOp s).reply = s.reply := rfl

end

/-- The check of R84 writes at most the error status. -/
theorem paddingCheck_eq_setError (s : State) : ∃ err code, paddingCheck s = s.setError err code := by
  rcases paddingCheck_cases s with ⟨_, h⟩ | ⟨_, h⟩
  · exact ⟨s.err, s.errCode, h⟩
  · rcases contractError_cases .paddingCheck s with ⟨_, hc⟩ | ⟨_, hc⟩
    · exact ⟨s.err, s.errCode, h.trans hc⟩
    · exact ⟨true, .paddingCheck, h.trans hc⟩

@[simp] theorem paddingCheck_total (s : State) : (paddingCheck s).total = s.total := by
  obtain ⟨err, code, h⟩ := paddingCheck_eq_setError s
  rw [h, State.setError_total]

@[simp] theorem paddingCheck_data (s : State) : (paddingCheck s).data = s.data := by
  obtain ⟨err, code, h⟩ := paddingCheck_eq_setError s
  rw [h, State.setError_data]

theorem length_dataBytes {n : BitVec 3} (hn : n.toNat ≤ 4) (data : Word) : (dataBytes n data).length = n.toNat := by
  simp [dataBytes, bytesBe32, hn]

end Sys2Proof.Machine
end

section
/-! The writers of the registers (spec/10_state.md R12, R15, R17, R18, R20), read off the cases of a step. -/

namespace Sys2Proof.Machine

/-- Settles O30, by the cases of a step. -/
theorem errorIsSticky : Obligations.ErrorIsSticky := by
  intro s t hstep
  constructor
  · intro herr
    cases step_effect hstep with
    | quiet _ _ ht => exact .inl (by simp [ht, herr])
    | reset aborted _ hs _ => exact .inr (.inl ⟨aborted, hs⟩)
    | data _ _ _ _ _ ht => exact .inl (by simp [ht, herr])
    | init m _ _ hs _ => exact .inr (.inr ⟨m, hs⟩)
    | reject _ _ _ _ _ _ _ _ he | update _ _ _ _ _ _ he | finalize _ _ _ _ he => simp [herr] at he
  · intro herr hset
    cases step_effect hstep with
    | quiet _ _ ht | data _ _ _ _ _ ht => simp [ht, herr] at hset
    | reset _ _ _ ht => simp [ht] at hset
    | reject m _ _ _ _ hs | init m _ _ hs | update m _ _ _ _ hs | finalize m _ _ hs => exact ⟨m, _, hs⟩

/-- Settles O31: an UPDATE that leaves H different completed a block, since `Absorb` of fewer bytes keeps H. -/
theorem hashStateWriters : Obligations.HashStateWriters := by
  intro s t hstep hne
  cases step_effect hstep with
  | quiet _ _ ht | data _ _ _ _ _ ht | reject _ _ _ _ _ _ _ _ _ ht => simp [ht] at hne
  | reset aborted _ hs _ => exact .inl ⟨aborted, hs⟩
  | init m _ _ hs _ => exact .inr (.inl ⟨m, hs⟩)
  | finalize m _ _ hs he hp _ => exact .inr (.inr ⟨he, hp, .inl ⟨m, hs⟩⟩)
  | update m n rest _ hn hs he hp ht =>
    have hblock : 64 ≤ s.fill.toNat + n.toNat := by
      by_contra hlt
      have hkept := absorb_h_of_lt (dataBytes n s.data) (s.setInbox rest) (by simp [length_dataBytes hn]; omega)
      simp [ht, hkept] at hne
    exact .inr (.inr ⟨he, hp, .inr ⟨m, n.toNat, hn, hblock, hs⟩⟩)

/-- Settles O32, by the cases of a step. -/
theorem phaseWriters : Obligations.PhaseWriters := by
  intro s t hstep hne
  cases step_effect hstep with
  | quiet _ _ ht | data _ _ _ _ _ ht | reject _ _ _ _ _ _ _ _ _ ht | update _ _ _ _ _ _ _ _ ht => simp [ht] at hne
  | reset aborted _ hs ht => exact .inr ⟨by simp [ht], .inl ⟨aborted, hs⟩⟩
  | init m _ _ hs ht => exact .inr ⟨by simp [ht], .inr ⟨m, hs⟩⟩
  | finalize m _ _ hs he _ ht => exact .inl ⟨by simp [ht], he, m, hs⟩

/-- Settles O33, by the cases of a step. -/
theorem totalWriters : Obligations.TotalWriters := by
  intro s t hstep hne
  cases step_effect hstep with
  | quiet _ _ ht | data _ _ _ _ _ ht | reject _ _ _ _ _ _ _ _ _ ht | finalize _ _ _ _ _ _ ht => simp [ht] at hne
  | reset aborted _ hs ht => exact .inl ⟨by simp [ht], .inl ⟨aborted, hs⟩⟩
  | init m _ _ hs ht => exact .inl ⟨by simp [ht], .inr ⟨m, hs⟩⟩
  | update m n _ _ hn hs he hp ht => exact .inr ⟨he, hp, m, n.toNat, hn, hs, by simp [ht]⟩

/-- Settles O34, by the cases of a step. -/
theorem dataWriters : Obligations.DataWriters := by
  intro s t hstep hne
  cases step_effect hstep with
  | quiet _ _ ht | reject _ _ _ _ _ _ _ _ _ ht | init _ _ _ _ ht | update _ _ _ _ _ _ _ _ ht
  | finalize _ _ _ _ _ _ ht => simp [ht] at hne
  | reset aborted _ hs ht => exact .inl ⟨by simp [ht], aborted, hs⟩
  | data m v _ _ hs ht => exact .inr ⟨m, by simpa [ht] using hs⟩

end Sys2Proof.Machine
end

section
/-! The invariant of spec/10_state.md R16, R18, R23 and spec/43_padding_finalize.md R84: reset meets it and every step keeps
it. -/

namespace Sys2Proof.Machine

/-- Settles O49. -/
theorem resetMeetsInvariant : Obligations.ResetMeetsInvariant where
  fill_of_total _ := rfl
  fill_finalized h := by cases h
  no_padding_check h := by cases h
  err_iff_code := ⟨fun _ => rfl, fun _ => rfl⟩
  seq_idle := rfl
  t_zero := rfl

/-- FILL = TOTAL mod 64 makes the padding end on a block boundary (R82). -/
theorem absorb_padding_fill {s : State} (hfill : s.fill.toNat = s.total.toNat % 64) :
    (absorb (padding s.total) s).fill = 0 := by
  have hwhole := padBytes_completes s.total
  apply BitVec.eq_of_toNat_eq
  rw [absorb_fill, length_padding, hfill, BitVec.toNat_ofNat]
  exact hwhole

/-- On the invariant the check of R84 passes, so FINALIZE only absorbs the padding and closes the message. -/
theorem finalize_passes_check {s : State} (hfill : s.fill.toNat = s.total.toNat % 64) :
    paddingCheck (absorb (padding s.total) s) = absorb (padding s.total) s := by
  rcases paddingCheck_cases (absorb (padding s.total) s) with ⟨_, h⟩ | ⟨hne, _⟩
  · exact h
  · exact absurd (absorb_padding_fill hfill) hne

namespace State.Inv

/-- The invariant speaks neither of DATA nor of the port's record. -/
theorem setReply {s : State} (hs : s.Inv) (c : Option Completion) : (s.setReply c).Inv := { hs with }
theorem setInbox {s : State} (hs : s.Inv) (es : List Event) : (s.setInbox es).Inv := { hs with }
theorem setData {s : State} (hs : s.Inv) (v : Word) : (s.setData v).Inv := { hs with }

theorem resetBlock (aborted : Option Access) (s : State) : (resetBlock aborted s).Inv := by
  constructor <;> simp

theorem initOp (s : State) : (initOp s).Inv := by
  constructor <;> simp

theorem setError {s : State} (hs : s.Inv) {code : ErrCode} (hnone : code ≠ .none) (hpad : code ≠ .paddingCheck) :
    (s.setError true code).Inv :=
  { hs with no_padding_check := hpad, err_iff_code := by simp [hnone] }

/-- Absorbing n bytes and counting them moves FILL and TOTAL together. -/
theorem update {s : State} (hs : s.Inv) {n : BitVec 3} (hn : n.toNat ≤ 4) (hp : s.phase = .accepting) :
    ((absorb (dataBytes n s.data) s).setTotal (s.total + n.setWidth 64)).Inv where
  fill_of_total _ := by
    have hfill := hs.fill_of_total hp
    simp [absorb_fill, length_dataBytes hn, hfill]
  fill_finalized h := by simp [hp] at h
  no_padding_check := by simpa using hs.no_padding_check
  err_iff_code := by simpa using hs.err_iff_code
  seq_idle := by simp [absorb_seq, hs.seq_idle]
  t_zero := by simp [absorb_t, hs.t_zero]

theorem finalize {s : State} (hs : s.Inv) (hp : s.phase = .accepting) :
    ((paddingCheck (absorb (padding s.total) s)).setPhase .finalized).Inv := by
  have hfill := hs.fill_of_total hp
  rw [finalize_passes_check hfill]
  exact {
    fill_of_total := fun h => by simp at h
    fill_finalized := fun _ => absorb_padding_fill hfill
    no_padding_check := by simpa using hs.no_padding_check
    err_iff_code := by simpa using hs.err_iff_code
    seq_idle := by simp [absorb_seq, hs.seq_idle]
    t_zero := by simp [absorb_t, hs.t_zero] }

end State.Inv

/-- Settles O50, by the cases of a step: each command's own lemma, and the port's record beside it. -/
theorem stepKeepsInvariant : Obligations.StepKeepsInvariant := by
  intro s t hs hstep
  cases step_effect hstep with
  | quiet rest c ht => exact ht ▸ (hs.setInbox rest).setReply c
  | reset aborted rest _ ht => exact ht ▸ State.Inv.resetBlock aborted _
  | data _ v rest c _ ht => exact ht ▸ ((hs.setInbox rest).setData v).setReply c
  | reject _ _ _ rest c _ hnone hpad _ ht => exact ht ▸ ((hs.setInbox rest).setError hnone hpad).setReply c
  | init _ rest c _ ht => exact ht ▸ (State.Inv.initOp _).setReply c
  | update _ n rest c hn _ _ hp ht => exact ht ▸ ((hs.setInbox rest).update hn hp).setReply c
  | finalize _ rest c _ _ hp ht => exact ht ▸ ((hs.setInbox rest).finalize hp).setReply c

end Sys2Proof.Machine
end

section
/-! What the spec calls `any value` is never observed (spec/10_state.md R13, R21, R22; spec/93_implementation_defined.md I2,
I3): every operation of the machine takes states that agree where they are defined to states that agree there. -/

namespace Sys2Proof.Machine

theorem sameOutcome_fault (r : Fault) : SameOutcome (.fault r) (.fault r) := rfl

namespace SameDefined

/-! ### The named updates -/

section
variable {s u : State} (hsu : SameDefined s u)
include hsu

theorem setInbox (es : List Event) : SameDefined (s.setInbox es) (u.setInbox es) := { hsu with inbox := rfl }
theorem setReply (c : Option Completion) : SameDefined (s.setReply c) (u.setReply c) := { hsu with reply := rfl }
theorem setData (v : Word) : SameDefined (s.setData v) (u.setData v) := { hsu with data := rfl }
theorem setTotal (total : BitVec 64) : SameDefined (s.setTotal total) (u.setTotal total) := { hsu with total := rfl }
theorem setPhase (phase : Phase) : SameDefined (s.setPhase phase) (u.setPhase phase) := { hsu with phase := rfl }
theorem setError (err : Bool) (code : ErrCode) : SameDefined (s.setError err code) (u.setError err code) :=
  { hsu with err := rfl, errCode := rfl }

/-! ### The shared operations -/

theorem contractError (code : ErrCode) : SameDefined (contractError code s) (contractError code u) := by
  simp only [Machine.contractError, ← hsu.err]
  split
  · exact hsu.setError true code
  · exact hsu

theorem paddingCheck : SameDefined (paddingCheck s) (paddingCheck u) := by
  simp only [Machine.paddingCheck, ← hsu.fill]
  split
  · exact hsu.contractError .paddingCheck
  · exact hsu

/-- What Absorb leaves is a function of FILL, the buffered bytes, H and the bytes absorbed. -/
theorem absorb (S : List Byte) : SameDefined (absorb S s) (absorb S u) where
  h := by rw [absorb_h, absorb_h, hsu.fill, hsu.buffered, hsu.h]
  buffered := by rw [buffered_absorb, buffered_absorb, hsu.fill, hsu.buffered]
  fill := by rw [absorb_fill, absorb_fill, hsu.fill]
  seq := by rw [absorb_seq, absorb_seq, hsu.fill, hsu.seq]
  t := by rw [absorb_t, absorb_t, hsu.fill, hsu.t]
  total := by simpa using hsu.total
  phase := by simpa using hsu.phase
  err := by simpa using hsu.err
  errCode := by simpa using hsu.errCode
  data := by simpa using hsu.data
  inbox := by simpa using hsu.inbox
  reply := by simpa using hsu.reply

/-- Reset and INIT leave FILL = 0, so nothing of BUF is defined after them. -/
theorem resetBlock (aborted : Option Access) : SameDefined (resetBlock aborted s) (resetBlock aborted u) where
  h := rfl
  buffered := by rw [buffered_empty _ (resetBlock_fill aborted s), buffered_empty _ (resetBlock_fill aborted u)]
  fill := rfl
  total := rfl
  phase := rfl
  err := rfl
  errCode := rfl
  data := rfl
  seq := rfl
  t := rfl
  inbox := hsu.inbox
  reply := rfl

theorem initOp : SameDefined (initOp s) (initOp u) where
  h := rfl
  buffered := by rw [buffered_empty _ (initOp_fill s), buffered_empty _ (initOp_fill u)]
  fill := rfl
  total := rfl
  phase := rfl
  err := rfl
  errCode := rfl
  data := hsu.data
  seq := rfl
  t := rfl
  inbox := hsu.inbox
  reply := hsu.reply

/-! ### The commands -/

theorem illegalOp : SameDefined (illegalOp s) (illegalOp u) := by
  simp only [Machine.illegalOp, ← hsu.err]
  split
  · exact hsu
  · exact hsu.contractError .illegalCommand

theorem updateOp (n : BitVec 3) : SameDefined (updateOp n s) (updateOp n u) := by
  simp only [Machine.updateOp, ← hsu.err, ← hsu.phase, ← hsu.data, ← hsu.total]
  split
  · exact hsu
  split
  · exact hsu.contractError .updateAfterFinalize
  · exact (hsu.absorb _).setTotal _

theorem finalizeOp : SameDefined (finalizeOp s) (finalizeOp u) := by
  simp only [Machine.finalizeOp, ← hsu.err, ← hsu.phase, ← hsu.total]
  split
  · exact hsu
  split
  · exact hsu.contractError .finalizeAfterFinalize
  · exact (hsu.absorb _).paddingCheck.setPhase .finalized

theorem exec (i : Instr) : SameOutcome (exec i s) (exec i u) := by
  cases i with
  | nop => exact hsu
  | init => exact hsu.initOp
  | update0 => exact hsu.updateOp 0
  | update1 => exact hsu.updateOp 1
  | update2 => exact hsu.updateOp 2
  | update3 => exact hsu.updateOp 3
  | update4 => exact hsu.updateOp 4
  | finalize => exact hsu.finalizeOp

theorem execute (v : Word) : SameOutcome (execute v s) (execute v u) := by
  unfold Machine.execute
  split
  · exact hsu.exec _
  · exact hsu.illegalOp

/-! ### The port and the step -/

/-- No register the host can read shows an undefined value. -/
theorem readReg (r : Reg) : readReg r s = readReg r u := by
  cases r <;> simp only [Machine.readReg, statusWord, hsu.data, hsu.fill, hsu.errCode, hsu.err, hsu.phase, hsu.total, hsu.h]

theorem memRead (off : Offset) (width : AccessWidth) : memRead off width s = memRead off width u := by
  simp only [Machine.memRead, hsu.readReg]

theorem memWrite (off : Offset) (width : AccessWidth) (v : Word) :
    SameOutcome (memWrite off width v s) (memWrite off width v u) := by
  unfold Machine.memWrite
  split
  · exact sameOutcome_fault _
  split
  · exact sameOutcome_fault _
  split
  · exact sameOutcome_fault _
  · exact hsu.execute v
  · exact hsu.setData v
  · exact sameOutcome_fault _

end

end SameDefined

/-- Answering an access on both sides keeps two outcomes alike. -/
theorem SameOutcome.complete {o p : StepOutcome} (h : SameOutcome o p) (a : Access) (r : Reply) :
    SameOutcome (mapNext (complete a r) o) (mapNext (complete a r) p) := by
  cases o <;> cases p
  case next.next => exact SameDefined.setReply h _
  all_goals exact h

theorem SameDefined.serveAccess {s u : State} (hsu : SameDefined s u) (a : Access) :
    SameOutcome (serveAccess a s) (serveAccess a u) := by
  unfold Machine.serveAccess
  split
  next =>
    rw [← hsu.memRead]
    split
    · exact hsu.setReply _
    · exact sameOutcome_fault _
  next v _ => exact (hsu.memWrite a.off a.width v).complete a .done

theorem SameDefined.serve {s u : State} (hsu : SameDefined s u) (e : Event) : SameOutcome (serve e s) (serve e u) := by
  cases e with
  | access a => exact hsu.serveAccess a
  | reset aborted => exact hsu.resetBlock aborted

/-- Settles O51: the same oldest event meets both states, and serving it keeps them alike. -/
theorem undefinedStateNeverShows : Obligations.UndefinedStateNeverShows := by
  intro s u hsu
  rw [step, step, ← hsu.inbox]
  split
  · exact hsu
  · exact (hsu.setInbox _).serve _

end Sys2Proof.Machine
end

section
/-! The registers a host reads (spec/10_state.md R28 to R31) and the constant ROMs (R24, R25). -/

namespace Sys2Proof.Machine

/-! ### STATUS -/

/-- A field shifted to bit k reads back at bit k. -/
@[simp] theorem extractLsb'_shift_same {w : Nat} (x : BitVec w) {k : Nat} (h : k + w ≤ 32) :
    (x.setWidth 32 <<< k).extractLsb' k w = x := by
  ext i hi
  have hbit : k + i < 32 := by omega
  simp [hi, hbit]

/-- A field shifted to bit k does not show outside bits k to k + w - 1. -/
@[simp] theorem extractLsb'_shift_disjoint {w : Nat} (x : BitVec w) {k start len : Nat}
    (h : start + len ≤ k ∨ k + w ≤ start) : (x.setWidth 32 <<< k).extractLsb' start len = 0 := by
  ext i hi
  rcases h with hbelow | habove
  · simp [show start + i < k by omega]
  · simp [BitVec.getLsbD_of_ge x (start + i - k) (by omega)]

@[simp] theorem extractLsb'_setWidth_above {w : Nat} (x : BitVec w) {start len : Nat} (h : w ≤ start) :
    (x.setWidth 32).extractLsb' start len = 0 := by
  simpa using extractLsb'_shift_disjoint x (k := 0) (start := start) (len := len) (.inr (by omega))

theorem statusWord_phase (s : State) : (statusWord s).getLsbD 0 = (s.phase == .finalized) := by
  cases hp : s.phase <;> simp [statusWord, hp, Phase.bit]

theorem statusWord_err (s : State) : (statusWord s).getLsbD 1 = s.err := by
  simp [statusWord, errBit, BitVec.getLsbD_of_ge]

theorem statusWord_reserved_low (s : State) : (statusWord s).extractLsb' 2 2 = 0 := by
  simp [statusWord, BitVec.extractLsb'_or]

theorem statusWord_errCode (s : State) : (statusWord s).extractLsb' 4 4 = s.errCode.bits := by
  simp [statusWord, BitVec.extractLsb'_or]

theorem statusWord_fill (s : State) : (statusWord s).extractLsb' 8 6 = s.fill := by
  simp [statusWord, BitVec.extractLsb'_or]

theorem statusWord_reserved_high (s : State) : (statusWord s).extractLsb' 14 18 = 0 := by
  simp [statusWord, BitVec.extractLsb'_or]

/-- Settles O12: each field reads back at its own place, and none shows at another's. -/
theorem statusFields : Obligations.StatusFields := by
  intro s
  refine ⟨statusWord_phase s, statusWord_err s, statusWord_reserved_low s, ?_, statusWord_fill s,
    statusWord_reserved_high s⟩
  rw [statusWord_errCode]
  cases s.errCode <;> rfl

/-! ### DIGEST0 to DIGEST7 -/

/-- R28, R35: a read of DIGESTi returns `H[i]`. -/
theorem memRead_digest (i : Fin 8) (s : State) : memRead (Reg.offset (.digest i)) .four s = .ok s.h[i] := by
  have haligned : (Reg.offset (.digest i)).toNat % 4 = 0 := by
    revert i
    decide
  simp [memRead, haligned, regAt_offset, readReg]

@[simp] theorem length_digestBytes (s : State) : (digestBytes s).length = 32 := rfl

/-- R30, R38: the digest bytes word by word, each most significant byte first. -/
theorem getElem?_digestBytes (s : State) (j : Fin 32) :
    (digestBytes s)[j.val]? = some ((s.h[j.val / 4]'(by omega)).extractLsb' (24 - 8 * (j.val % 4)) 8) := by
  fin_cases j <;> rfl

/-- Settles O13. -/
theorem digestBytesBigEndian : Obligations.DigestBytesBigEndian :=
  fun s => ⟨fun i => memRead_digest i s, length_digestBytes s, getElem?_digestBytes s⟩

/-! ### Reset values -/

/-- Settles O15: the reset values stand in `State.reset` as R31 lists them. -/
theorem resetStateValues : Obligations.ResetStateValues :=
  ⟨rfl, rfl, rfl, rfl, rfl, rfl, rfl, rfl, rfl⟩

/-! ### The ROMs

A ROM word is the fractional part of a root, so its witness `r` is the integer part of that root above the word itself. -/

/-- Trial division by the numbers below 18 decides primality below 18². -/
theorem prime_iff_of_lt {n : Nat} (hn : n < 18 ^ 2) : Nat.Prime n ↔ 2 ≤ n ∧ ∀ m < 18, 2 ≤ m → m < n → ¬ m ∣ n := by
  constructor
  · intro hp
    exact ⟨hp.two_le, fun m _ hm hmn hdvd => ((Nat.dvd_prime hp).1 hdvd).elim (by omega) (by omega)⟩
  · rintro ⟨h2, hno⟩
    refine Nat.prime_def_le_sqrt.2 ⟨h2, fun m hm hsqrt => hno m ?_ hm ?_⟩
    · exact lt_of_le_of_lt hsqrt (Nat.sqrt_lt'.2 hn)
    · exact lt_of_le_of_lt hsqrt (Nat.sqrt_lt_self (by omega))

/-- The first 64 primes. -/
def firstPrimes : List Nat :=
  [2, 3, 5, 7, 11, 13, 17, 19, 23, 29, 31, 37, 41, 43, 47, 53, 59, 61, 67, 71, 73, 79, 83, 89, 97, 101, 103, 107, 109,
    113, 127, 131, 137, 139, 149, 151, 157, 163, 167, 173, 179, 181, 191, 193, 197, 199, 211, 223, 227, 229, 233, 239,
    241, 251, 257, 263, 269, 271, 277, 281, 283, 293, 307, 311]

theorem primes_below_312 : ((List.range 312).filter fun n => decide (Nat.Prime n)) = firstPrimes := by
  rw [List.filter_congr (q := fun n => decide (2 ≤ n ∧ ∀ m < 18, 2 ≤ m → m < n → ¬ m ∣ n))]
  · decide +kernel
  · intro n hn
    rw [List.mem_range] at hn
    exact decide_eq_decide.2 (prime_iff_of_lt (by omega))

/-- The prime whose roots entry i of the ROMs comes from. -/
def romPrime (i : Fin 64) : Nat := firstPrimes[i.val]'i.isLt

/-- `whole + frac / 2^32`, scaled by 2^32. -/
def scaledRoot (whole : Nat) (frac : Word) : Nat := 2 ^ 32 * whole + frac.toNat

theorem scaledRoot_mod (whole : Nat) (frac : Word) : scaledRoot whole frac % 2 ^ 32 = frac.toNat := by
  rw [scaledRoot, Nat.mul_add_mod, Nat.mod_eq_of_lt frac.isLt]

/-- The integer part of the cube root of a number below 7³. -/
def floorCbrt (p : Nat) : Nat := ((List.range 6).filter fun k => decide ((k + 1) ^ 3 ≤ p)).length

theorem ivRom_sqrt (i : Fin 8) :
    let p := romPrime (i.castLE (by decide))
    let r := scaledRoot p.sqrt ivRom[i]
    [2, 3, 5, 7, 11, 13, 17, 19][i.val]? = some p ∧ r ^ 2 ≤ p * 2 ^ 64 ∧ p * 2 ^ 64 < (r + 1) ^ 2 := by
  revert i
  decide +kernel

theorem kRom_cbrt (i : Fin 64) :
    let p := romPrime i
    let r := scaledRoot (floorCbrt p) kRom[i]
    r ^ 3 ≤ p * 2 ^ 96 ∧ p * 2 ^ 96 < (r + 1) ^ 3 := by
  revert i
  decide +kernel

/-- Settles O42: the bounds of each root hold of the ROM word below the root's integer part. -/
theorem romsFromPrimeRoots : Obligations.RomsFromPrimeRoots := by
  refine ⟨fun i => ?_, fun i => ?_⟩
  · obtain ⟨hp, hlow, hhigh⟩ := ivRom_sqrt i
    exact ⟨_, _, hp, hlow, hhigh, (scaledRoot_mod _ _).symm⟩
  · obtain ⟨hlow, hhigh⟩ := kRom_cbrt i
    refine ⟨romPrime i, _, ?_, hlow, hhigh, (scaledRoot_mod _ _).symm⟩
    rw [primes_below_312]
    exact List.getElem?_eq_getElem i.isLt

end Sys2Proof.Machine
end

section
/-! The host port (spec/20_memory.md R34 to R37, R42): what a read and a write do at every offset and width, which accesses
complete, and that a step takes the oldest event. -/

namespace Sys2Proof.Machine

/-! ### The register map -/

/-- R28: a mapped offset is the offset of its register. -/
theorem offset_of_regAt {off : Offset} {r : Reg} (h : regAt off = some r) : off = r.offset := by
  unfold regAt at h
  split_ifs at h with h0 h4 h8 hC h10 hdigest <;> cases h
  · exact h0
  · exact h4
  · exact h8
  · exact hC
  · exact h10
  · apply BitVec.eq_of_toNat_eq
    simp only [Reg.offset, BitVec.toNat_ofNat]
    omega

@[simp] theorem Reg.offset_aligned (r : Reg) : r.offset.toNat % 4 = 0 := by
  cases r with
  | digest i => revert i; decide
  | _ => rfl

/-- R28: the aligned offsets the map does not list. -/
theorem regAt_eq_none {off : Offset} (haligned : off.toNat % 4 = 0) (h : regAt off = none) :
    off ≠ 0x00 ∧ off ≠ 0x04 ∧ off ≠ 0x08 ∧ off ≠ 0x0C ∧ off ≠ 0x10 ∧ ¬ (0x20 ≤ off.toNat ∧ off.toNat ≤ 0x3C) := by
  unfold regAt at h
  split_ifs at h with h0 h4 h8 hC h10 hdigest
  exact ⟨h0, h4, h8, hC, h10, fun ⟨hlow, hhigh⟩ => hdigest ⟨hlow, hhigh, haligned⟩⟩

/-! ### Reads and writes -/

theorem readReg_eq_some {r : Reg} {s : State} {v : Word} (h : readReg r s = some v) : r.readable = true := by
  cases r with
  | cmd => cases h
  | _ => rfl

/-- R35: a read that returns a word is 4 bytes wide, at the offset of a readable register. -/
theorem memRead_ok {off : Offset} {width : AccessWidth} {s : State} {v : Word} (h : memRead off width s = .ok v) :
    width = .four ∧ ∃ r : Reg, off = r.offset ∧ r.readable = true := by
  unfold memRead at h
  split at h
  · cases h
  next hwidth =>
    split at h
    · cases h
    split at h
    · cases h
    next r hr =>
      split at h
      · cases h
      next hv => exact ⟨not_not.1 hwidth, r, offset_of_regAt hr, readReg_eq_some hv⟩

/-- R35: a 4-byte read of a readable register returns a word. -/
theorem memRead_readable {r : Reg} (h : r.readable = true) (s : State) : ∃ v, memRead r.offset .four s = .ok v := by
  cases r with
  | cmd => cases h
  | digest i => exact ⟨_, memRead_digest i s⟩
  | _ => exact ⟨_, rfl⟩

/-- R36: a 4-byte write of a writable register completes. -/
theorem memWrite_writable {r : Reg} (h : r.writable = true) (v : Word) (s : State) :
    ∃ t, memWrite r.offset .four v s = .next t := by
  cases r with
  | cmd => exact execute_next v s
  | data => exact ⟨_, rfl⟩
  | _ => cases h

/-- R36: a write completes or is a bus error at its own offset. -/
theorem memWrite_outcome (off : Offset) (width : AccessWidth) (v : Word) (s : State) :
    (∃ t, memWrite off width v s = .next t) ∨ ∃ k, memWrite off width v s = .fault (.busError off k) := by
  unfold memWrite
  split
  · exact .inr ⟨_, rfl⟩
  split
  · exact .inr ⟨_, rfl⟩
  split
  · exact .inr ⟨_, rfl⟩
  · exact .inl (execute_next v s)
  · exact .inl ⟨_, rfl⟩
  · exact .inr ⟨_, rfl⟩

/-- Settles O8: at a mapped offset by the register there, at any other because no line of the table matches. -/
theorem hostReadResult : Obligations.HostReadResult := by
  intro off width s
  refine ite_congr rfl (fun _ => rfl) fun _ => ite_congr rfl (fun _ => rfl) fun haligned => ?_
  cases hr : regAt off with
  | some r =>
    obtain rfl := offset_of_regAt hr
    cases r with
    | digest i => fin_cases i <;> rfl
    | _ => rfl
  | none =>
    obtain ⟨h0, h4, h8, hC, h10, hdigest⟩ := regAt_eq_none (not_not.1 haligned) hr
    simp only [h0, h4, h8, hC, h10, hdigest, if_false, dif_neg, not_false_eq_true]

/-- Settles O9: at a mapped offset by the register there, at any other because no line of the table matches. -/
theorem hostWriteResult : Obligations.HostWriteResult := by
  intro off width v s
  refine ite_congr rfl (fun _ => rfl) fun _ => ite_congr rfl (fun _ => rfl) fun haligned => ?_
  cases hr : regAt off with
  | some r =>
    obtain rfl := offset_of_regAt hr
    cases r with
    | digest i => fin_cases i <;> rfl
    | _ => rfl
  | none =>
    obtain ⟨h0, h4, h8, hC, h10, hdigest⟩ := regAt_eq_none (not_not.1 haligned) hr
    simp only [h0, h4, h8, hC, h10, hdigest, or_self, if_false]

/-! ### Which accesses complete -/

/-- R34: the legal accesses are the 4-byte ones at the offset of a register, in a direction it allows. -/
theorem Access.legal_iff {a : Access} :
    a.legal = true ↔ a.width = .four ∧ ∃ r : Reg, a.off = r.offset ∧ a.op.allowedOn r = true := by
  constructor
  · intro h
    simp only [Access.legal, Bool.and_eq_true, beq_iff_eq] at h
    obtain ⟨⟨hwidth, _⟩, hallowed⟩ := h
    split at hallowed
    next r hr => exact ⟨hwidth, r, offset_of_regAt hr, hallowed⟩
    next => cases hallowed
  · rintro ⟨hwidth, r, hoff, hallowed⟩
    simp [Access.legal, hwidth, hoff, regAt_offset, hallowed]

theorem serveAccess_of_legal {a : Access} (h : a.legal = true) (s : State) : ∃ t, serveAccess a s = .next t := by
  obtain ⟨hwidth, r, hoff, hallowed⟩ := Access.legal_iff.1 h
  unfold serveAccess
  rw [hwidth, hoff]
  cases hop : a.op with
  | read =>
    rw [hop] at hallowed
    obtain ⟨v, hv⟩ := memRead_readable hallowed s
    exact ⟨complete a (.value v) s, by simp only [hv]⟩
  | write v =>
    rw [hop] at hallowed
    obtain ⟨t, ht⟩ := memWrite_writable hallowed v s
    exact ⟨complete a .done t, by simp only [ht, mapNext]⟩

theorem legal_of_serveAccess {a : Access} {s t : State} (h : serveAccess a s = .next t) : a.legal = true := by
  rcases serveAccess_next h with ⟨v, hop, hv, _⟩ | ⟨v, ha, _⟩ | ⟨v, u, ha, _, _⟩
  · obtain ⟨hwidth, r, hoff, hreadable⟩ := memRead_ok hv
    exact Access.legal_iff.2 ⟨hwidth, r, hoff, by rw [hop]; exact hreadable⟩
  · rw [ha]
    exact Access.legal_iff.2 ⟨rfl, .data, rfl, rfl⟩
  · rw [ha]
    exact Access.legal_iff.2 ⟨rfl, .cmd, rfl, rfl⟩

/-- R34: an access completes exactly when it is legal. -/
theorem serveAccess_next_iff (a : Access) (s : State) : (∃ t, serveAccess a s = .next t) ↔ a.legal = true :=
  ⟨fun ⟨_, h⟩ => legal_of_serveAccess h, fun h => serveAccess_of_legal h s⟩

/-- R37: an access completes or is a bus error at its own offset. -/
theorem serveAccess_outcome (a : Access) (s : State) :
    (∃ t, serveAccess a s = .next t) ∨ ∃ k, serveAccess a s = .fault (.busError a.off k) := by
  unfold serveAccess
  split
  · split
    · exact .inl ⟨_, rfl⟩
    · exact .inr ⟨_, rfl⟩
  next v _ =>
    rcases memWrite_outcome a.off a.width v s with ⟨t, ht⟩ | ⟨k, hk⟩
    · exact .inl ⟨complete a .done t, by rw [ht]; rfl⟩
    · exact .inr ⟨k, by rw [hk]; rfl⟩

theorem serveAccess_of_not_legal {a : Access} (h : a.legal = false) (s : State) :
    ∃ k, serveAccess a s = .fault (.busError a.off k) :=
  (serveAccess_outcome a s).resolve_left fun hnext => by simp [(serveAccess_next_iff a s).1 hnext] at h

/-! ### The step -/

theorem step_idle {s : State} (h : s.inbox = []) : step s = .next s := by
  simp only [step, h]

theorem step_event {s : State} {e : Event} {rest : List Event} (h : s.inbox = e :: rest) :
    step s = serve e (s.setInbox rest) := by
  simp only [step, h]

/-- Settles O7, by the oldest event: none, a reset, or an access, which stops the step exactly when it is illegal. -/
theorem stepStopsOnlyOnBusError : Obligations.StepStopsOnlyOnBusError := by
  intro s
  cases hs : s.inbox with
  | nil => simp [step_idle hs]
  | cons e rest =>
    rw [step_event hs]
    cases e with
    | reset aborted => simp [serve]
    | access a =>
      simp only [serve, List.head?_cons, Option.some.injEq, Event.access.injEq, forall_eq']
      exact ⟨serveAccess_next_iff a _, fun h => serveAccess_of_not_legal h _⟩

@[simp] theorem complete_inbox (a : Access) (r : Reply) (s : State) : (complete a r s).inbox = s.inbox := rfl

@[simp] theorem paddingCheck_inbox (s : State) : (paddingCheck s).inbox = s.inbox := by
  obtain ⟨err, code, h⟩ := paddingCheck_eq_setError s
  rw [h, State.setError_inbox]

/-- No command word touches the pending events. -/
theorem execute_inbox {v : Word} {s t : State} (h : execute v s = .next t) : t.inbox = s.inbox := by
  cases execute_commandCase h with
  | skip ht => rw [ht]
  | reject _ _ _ _ ht | init _ ht | update _ _ _ _ _ ht | finalize _ _ _ ht => simp [ht]

/-- Settles O6, by the cases of a step. -/
theorem stepTakesOldestEvent : Obligations.StepTakesOldestEvent := by
  refine ⟨fun s t hstep => ?_, fun s hs => step_idle hs⟩
  cases step_cases hstep with
  | idle hs ht => simp [ht, hs]
  | reset _ _ hs ht | read _ _ _ hs _ _ ht | data _ _ _ hs ht => simp [ht, hs]
  | command _ _ _ _ hs hx ht => simp [ht, hs, execute_inbox hx]

/-- Settles O10: of the cases of a step, only the read has a read as its oldest event. -/
theorem readHasNoSideEffect : Obligations.ReadHasNoSideEffect := by
  intro s t a rest hinbox hread hstep
  cases step_cases hstep with
  | idle hs _ | reset _ _ hs _ => simp [hs] at hinbox
  | read b rest' v hs _ hv ht =>
    obtain ⟨rfl, rfl⟩ : b = a ∧ rest' = rest := by simpa [hs] using hinbox
    exact ⟨v, hv, ht⟩
  | data m v rest' hs _ | command m v rest' _ hs _ _ =>
    obtain ⟨rfl, rfl⟩ : _ = a ∧ rest' = rest := by simpa [hs] using hinbox
    cases hread

end Sys2Proof.Machine
end

section
/-! Decoder and encoder (spec/30_encoding.md R48 to R52): a word is legal exactly when it is the word of an instruction, and
executing any other word records at most the error. -/

namespace Sys2Proof.Machine

/-! ### The fields of a packed word -/

/-- The fields of a packed word are those it was packed from (R48). -/
theorem fields_pack (f : CommandFields) :
    CommandFields.mk (opField f.pack) (countField f.pack) (rsvField f.pack) = f := by
  obtain ⟨op, n, rsv⟩ := f
  simp only [CommandFields.mk.injEq, ← BitVec.toNat_inj, opField, countField, rsvField, CommandFields.pack,
    BitVec.extractLsb'_toNat, toNat_append_eq_add, Nat.shiftRight_eq_div_pow]
  omega

theorem pack_injective : Function.Injective CommandFields.pack :=
  Function.LeftInverse.injective
    (g := fun cmd : Word => CommandFields.mk (opField cmd) (countField cmd) (rsvField cmd)) fields_pack

/-! ### Legal words -/

theorem decode_encode (i : Instr) : decode (encode i) = .ok i := by
  cases i <;> rfl

theorem decode_eq_ok_iff {cmd : Word} {i : Instr} : decode cmd = .ok i ↔ encode i = cmd :=
  ⟨encode_of_decode, fun h => h ▸ decode_encode i⟩

theorem instr_wellFormed (i : Instr) : i.WellFormed := by
  cases i <;> rfl

/-- R49, R50: the well-formed fields are those of the eight instructions. -/
theorem fields_of_wellFormed {f : CommandFields} (h : f.wellFormed = true) : ∃ i : Instr, i.fields = f := by
  obtain ⟨op, n, rsv⟩ := f
  simp only [CommandFields.wellFormed, CommandFields.rsvZero, Bool.and_eq_true, beq_iff_eq] at h
  obtain ⟨⟨rfl, hop⟩, hn⟩ := h
  have assigned : ∀ op : BitVec 4, op.toNat ≤ 3 → op = 0 ∨ op = 1 ∨ op = 2 ∨ op = 3 := by decide
  have counts : ∀ n : BitVec 3, n.toNat ≤ 4 → n = 0 ∨ n = 1 ∨ n = 2 ∨ n = 3 ∨ n = 4 := by decide
  rcases assigned op (of_decide_eq_true hop) with rfl | rfl | rfl | rfl
  · obtain rfl : n = 0 := eq_of_beq hn
    exact ⟨.nop, rfl⟩
  · obtain rfl : n = 0 := eq_of_beq hn
    exact ⟨.init, rfl⟩
  · rcases counts n (of_decide_eq_true hn) with rfl | rfl | rfl | rfl | rfl
    exacts [⟨.update0, rfl⟩, ⟨.update1, rfl⟩, ⟨.update2, rfl⟩, ⟨.update3, rfl⟩, ⟨.update4, rfl⟩]
  · obtain rfl : n = 0 := eq_of_beq hn
    exact ⟨.finalize, rfl⟩

/-- R52: three fields make a legal word exactly when they are well-formed. -/
theorem decode_pack_iff (f : CommandFields) : (∃ i, decode f.pack = .ok i) ↔ f.wellFormed = true := by
  constructor
  · rintro ⟨i, hi⟩
    have hfields : i.fields = f := pack_injective (decode_eq_ok_iff.1 hi)
    exact hfields ▸ instr_wellFormed i
  · intro h
    obtain ⟨i, rfl⟩ := fields_of_wellFormed h
    exact ⟨i, decode_encode i⟩

/-- Settles O2: the decoder inverts `encode` on both sides, and well-formed fields are an instruction's. -/
theorem decodeEncodeAgree : Obligations.DecodeEncodeAgree :=
  ⟨fun i => ⟨instr_wellFormed i, decode_encode i⟩, fun _ _ h => encode_of_decode h, decode_pack_iff⟩

/-- Settles O1: the list of R51 is the graph of `encode`. -/
theorem legalWordsDecode : Obligations.LegalWordsDecode := by
  intro cmd i
  rw [decode_eq_ok_iff, eq_comm]
  cases i <;> simp [encode, CommandFields.pack, Instr.fields]

/-! ### Illegal words -/

/-- Settles O3: no instruction's word falls under a case of R52, so the word does not decode, and `illegalOp` is left. -/
theorem illegalWordRecordsError : Obligations.IllegalWordRecordsError := by
  intro cmd s hillegal
  rcases execute_cases cmd s with ⟨i, hi, _⟩ | ⟨_, _, hx⟩
  · obtain rfl := encode_of_decode hi
    cases i <;> exact absurd hillegal (by decide)
  · rw [hx]
    rcases illegalOp_cases s with ⟨he, h⟩ | ⟨he, h⟩
    · simp [he, h]
    · simp [he, h, State.setError]

end Sys2Proof.Machine
end

section
/-! A message through the port (spec/41_buffer_manager.md R59, R63; spec/43_padding_finalize.md R80, R83;
spec/30_encoding.md R53): from a fresh engine, what a run of `WR DATA` / `UPDATE n` pairs has taken in, the digest FINALIZE
makes of it, and the reads that return it. -/

namespace Sys2Proof.Machine

/-! ### The fold of Compress over a stream -/

theorem firstBlock_append {X : List Byte} (Y : List Byte) (h : 64 ≤ X.length) : firstBlock (X ++ Y) = firstBlock X := by
  ext i hi
  have hlt : i < X.length := by omega
  simp [firstBlock, List.getElem?_append_left hlt]

theorem hashBlocks_add (a b : Nat) (X : List Byte) (H : Vector Word 8) :
    hashBlocks (a + b) X H = hashBlocks b (X.drop (a * 64)) (hashBlocks a X H) := by
  induction a generalizing X H with
  | zero => simp [hashBlocks]
  | succ a ih =>
    have hdrop : a * 64 + 64 = (a + 1) * 64 := by omega
    rw [Nat.succ_add, hashBlocks, hashBlocks, ih, List.drop_drop, Nat.add_comm 64, hdrop]

/-- Bytes after the folded blocks do not show. -/
theorem hashBlocks_append {n : Nat} {X : List Byte} (Y : List Byte) (H : Vector Word 8) (h : n * 64 ≤ X.length) :
    hashBlocks n (X ++ Y) H = hashBlocks n X H := by
  induction n generalizing X H with
  | zero => rfl
  | succ n ih =>
    rw [hashBlocks, hashBlocks, firstBlock_append Y (by omega), List.drop_append_of_le_length (by omega),
      ih _ (by rw [List.length_drop]; omega)]

/-! ### What the engine has consumed -/

/-- The engine has taken in the stream `X` since its hash state was `H`: the whole blocks are folded, the rest is
buffered (R59). -/
structure Consumed (H : Vector Word 8) (X : List Byte) (s : State) : Prop where
  h : s.h = hashBlocks (X.length / 64) X H
  fill : s.fill.toNat = X.length % 64
  buffered : buffered s = X.drop (X.length / 64 * 64)

theorem consumed_nil {s : State} (hfill : s.fill = 0) : Consumed s.h [] s :=
  ⟨rfl, by rw [hfill]; rfl, buffered_empty s hfill⟩

/-- Absorbing `S` extends the stream by `S`. -/
theorem Consumed.absorb {H : Vector Word 8} {X : List Byte} {s : State} (hs : Consumed H X s) (S : List Byte) :
    Consumed H (X ++ S) (absorb S s) := by
  have hblocks : (X ++ S).length / 64 = X.length / 64 + (s.fill.toNat + S.length) / 64 := by
    rw [List.length_append, hs.fill]
    omega
  have hstream : Machine.buffered s ++ S = (X ++ S).drop (X.length / 64 * 64) := by
    rw [hs.buffered, List.drop_append_of_le_length (by omega)]
  constructor
  case h => rw [absorb_h, hstream, hs.h, hblocks, hashBlocks_add, hashBlocks_append S H (by omega)]
  case fill =>
    rw [absorb_fill, BitVec.toNat_ofNat, hs.fill, List.length_append]
    omega
  case buffered => rw [buffered_absorb, hstream, hblocks, List.drop_drop, Nat.add_mul]

/-- The engine is in the course of the message `msg`: a fresh engine has consumed exactly these bytes and counted them,
and no error is recorded (R63). -/
structure MessageSoFar (msg : List Byte) (s : State) : Prop extends Consumed ivRom msg s where
  total : s.total = BitVec.ofNat 64 msg.length
  phase : s.phase = .accepting
  err : s.err = false
  errCode : s.errCode = .none

theorem State.Fresh.messageSoFar {s : State} (hs : s.Fresh) : MessageSoFar [] s :=
  { toConsumed := hs.h ▸ consumed_nil hs.fill
    total := hs.total, phase := hs.phase, err := hs.err, errCode := hs.errCode }

namespace MessageSoFar

variable {msg : List Byte} {s : State} (hs : MessageSoFar msg s)
include hs

theorem setReply (c : Option Completion) : MessageSoFar msg (s.setReply c) := { hs with }
theorem setData (v : Word) : MessageSoFar msg (s.setData v) := { hs with }

/-- UPDATE n takes in the first n bytes of DATA (R61). -/
theorem updateOp {n : BitVec 3} (hn : n.toNat ≤ 4) : MessageSoFar (msg ++ dataBytes n s.data) (updateOp n s) := by
  have hop : Machine.updateOp n s = (Machine.absorb (dataBytes n s.data) s).setTotal (s.total + n.setWidth 64) := by
    simp [Machine.updateOp, hs.err, hs.phase]
  have hconsumed := hs.absorb (dataBytes n s.data)
  rw [hop]
  exact {
    h := hconsumed.h
    fill := hconsumed.fill
    buffered := hconsumed.buffered
    total := by
      rw [State.setTotal_total, hs.total, List.length_append, length_dataBytes hn, BitVec.ofNat_add]
      simp
    phase := by simp [hs.phase]
    err := by simp [hs.err]
    errCode := by simp [hs.errCode] }

/-- FILL and TOTAL count the same bytes (R16), so the check of R84 passes and FINALIZE absorbs the padding only. -/
theorem finalizeOp_eq : finalizeOp s = (Machine.absorb (padding s.total) s).setPhase .finalized := by
  have hfill : s.fill.toNat = s.total.toNat % 64 := by
    rw [hs.fill, hs.total, BitVec.toNat_ofNat]
    omega
  simp [finalizeOp, hs.err, hs.phase, finalize_passes_check hfill]

/-- FINALIZE leaves the digest of the message in H (R83). -/
theorem finalizeOp_h : (finalizeOp s).h = sha256 msg := by
  rw [hs.finalizeOp_eq, State.setPhase_h, (hs.absorb _).h, hs.total]
  rfl

end MessageSoFar

/-! ### Runs of accesses -/

/-- The accesses complete one after the other and take `s` to `t`, and the reads among them return `vs` in order. -/
def Runs (as : List Access) (s t : State) (vs : List Word) : Prop :=
  ∃ rs, runAccesses as s = .next (t, rs) ∧ readValues rs = vs

theorem readValues_append (rs qs : List Reply) : readValues (rs ++ qs) = readValues rs ++ readValues qs := by
  induction rs with
  | nil => rfl
  | cons r rs ih => cases r <;> simp [readValues, ih]

theorem runAccesses_append {as bs : List Access} {s t u : State} {rs qs : List Reply}
    (has : runAccesses as s = .next (t, rs)) (hbs : runAccesses bs t = .next (u, qs)) :
    runAccesses (as ++ bs) s = .next (u, rs ++ qs) := by
  induction as generalizing s rs with
  | nil =>
    cases has
    exact hbs
  | cons a as ih =>
    rw [runAccesses] at has
    split at has
    next v hv =>
      split at has
      next w ps hw =>
        cases has
        rw [List.cons_append, runAccesses, hv]
        simp only [ih hw, List.append_assoc]
      all_goals cases has
    all_goals cases has

theorem Runs.nil (s : State) : Runs [] s s [] := ⟨[], rfl, rfl⟩

theorem Runs.append {as bs : List Access} {s t u : State} {vs ws : List Word} (has : Runs as s t vs)
    (hbs : Runs bs t u ws) : Runs (as ++ bs) s u (vs ++ ws) := by
  obtain ⟨rs, hrs, rfl⟩ := has
  obtain ⟨qs, hqs, rfl⟩ := hbs
  exact ⟨rs ++ qs, runAccesses_append hrs hqs, readValues_append rs qs⟩

theorem runAccesses_single {a : Access} {r : Reply} {s t : State} (h : serveAccess a s = .next (complete a r t)) :
    runAccesses [a] s = .next (complete a r t, [r]) := by
  rw [runAccesses, h]
  rfl

/-- `WR reg, v` (R53). -/
theorem runs_wr (m : Nat) {r : Reg} {v : Word} {s t : State} (h : memWrite r.offset .four v s = .next t) :
    Runs [BaseStmt.access m (.wr r v)] s (complete (BaseStmt.access m (.wr r v)) .done t) [] := by
  refine ⟨[.done], runAccesses_single ?_, rfl⟩
  exact congrArg (mapNext (complete (BaseStmt.access m (.wr r v)) .done)) h

theorem memWrite_data (v : Word) (s : State) : memWrite (Reg.offset .data) .four v s = .next (s.setData v) := rfl

theorem memWrite_cmd (v : Word) (s : State) : memWrite (Reg.offset .cmd) .four v s = execute v s := rfl

/-- A CMD write runs the command word (R36, R54). -/
theorem runs_commandWrite (m : Nat) {v : Word} {s t : State} (h : execute v s = .next t) :
    Runs [commandWrite m v] s (complete (commandWrite m v) .done t) [] :=
  runs_wr m ((memWrite_cmd v s).trans h)

/-- `RD DIGESTi` returns `H[i]` (R30, R35). -/
theorem runs_digestRead (m : Nat) (i : Fin 8) (s : State) :
    Runs [BaseStmt.access m (.rd (.digest i))] s
      (complete (BaseStmt.access m (.rd (.digest i))) (.value s.h[i]) s) [s.h[i]] := by
  refine ⟨[.value s.h[i]], runAccesses_single ?_, rfl⟩
  simp only [serveAccess, BaseStmt.access, memRead_digest]

/-! ### The message through the port -/

theorem initOp_fresh (s : State) : (initOp s).Fresh := ⟨rfl, rfl, rfl, rfl, rfl, rfl⟩

/-- INIT starts a message from any state (R57). -/
theorem runs_init (m : Nat) (s : State) : ∃ t, Runs [commandWrite m 0x00000001] s t [] ∧ MessageSoFar [] t :=
  ⟨_, runs_commandWrite m (t := initOp s) rfl, (initOp_fresh s).messageSoFar.setReply _⟩

theorem execute_updateWord (n : Fin 5) (s : State) :
    execute (updateWord n.val) s = .next (updateOp (BitVec.ofNat 3 n.val) s) := by
  fin_cases n <;> rfl

/-- `WR DATA` / `UPDATE n` pairs take in the bytes they feed, in order (R101). -/
theorem MessageSoFar.runs_feed (m : Nat) (spans : List (Fin 5 × Word)) {msg : List Byte} {s : State}
    (hs : MessageSoFar msg s) : ∃ t, Runs (feedAccesses m spans) s t [] ∧ MessageSoFar (msg ++ fedBytes spans) t := by
  induction spans generalizing msg s with
  | nil => exact ⟨s, Runs.nil s, by simpa [fedBytes] using hs⟩
  | cons span spans ih =>
    obtain ⟨n, v⟩ := span
    have hn : (BitVec.ofNat 3 n.val).toNat ≤ 4 := by
      revert n
      decide
    have hdata := (hs.setData v).setReply (some ⟨BaseStmt.access m (.wr .data v), .done⟩)
    have hupdate := (hdata.updateOp hn).setReply (some ⟨commandWrite m (updateWord n.val), .done⟩)
    obtain ⟨t, hrun, ht⟩ := ih hupdate
    have hpair := (runs_wr m (memWrite_data v s)).append (runs_commandWrite m (execute_updateWord n _))
    exact ⟨t, hpair.append hrun, by simpa [fedBytes] using ht⟩

/-- FINALIZE closes the message with its digest (R83). -/
theorem MessageSoFar.runs_finalize (m : Nat) {msg : List Byte} {s : State} (hs : MessageSoFar msg s) :
    ∃ t, Runs [commandWrite m 0x00000003] s t [] ∧ t.h = sha256 msg :=
  ⟨_, runs_commandWrite m (t := finalizeOp s) rfl, hs.finalizeOp_h⟩

/-! ### The statements of a script -/

/-- The span one PUSH feeds (R53). -/
def pushSpan (bs : List Byte) : Fin 5 × Word := (Fin.ofNat 5 bs.length, pushWord bs)

/-- The accesses of PUSHSTR are a feed, a span for each group of bytes. -/
theorem pushstr_accesses (m : Nat) (text : List Byte) :
    (pushstrStmts text).map (BaseStmt.access m) = feedAccesses m ((groupsOf4 text).map pushSpan) := by
  induction text using groupsOf4.induct with
  | case5 a b c d rest ih =>
    have hfirst : (pushStmts [a, b, c, d]).map (BaseStmt.access m) = feedAccesses m [pushSpan [a, b, c, d]] := rfl
    simp only [pushstrStmts, feedAccesses, groupsOf4, List.flatMap_cons, List.map_append, List.map_cons] at ih hfirst ⊢
    rw [ih, hfirst]
    simp
  | _ => rfl

/-- A PUSH of up to four bytes feeds those bytes: the absent lanes are not among the first n. -/
theorem fedBytes_pushSpans (text : List Byte) : fedBytes ((groupsOf4 text).map pushSpan) = text := by
  induction text using groupsOf4.induct with
  | case1 => rfl
  | case5 a b c d rest ih =>
    simpa [fedBytes, groupsOf4, pushSpan, pushWord, dataBytes] using ih
  | _ => simp [fedBytes, groupsOf4, pushSpan, pushWord, dataBytes]

/-- Reads of the digest registers return their words and keep them. -/
theorem runs_digestReads (m : Nat) (is : List (Fin 8)) (s : State) :
    ∃ t, Runs (is.map fun i => BaseStmt.access m (.rd (.digest i))) s t (is.map fun i => s.h[i]) ∧ t.h = s.h := by
  induction is generalizing s with
  | nil => exact ⟨s, Runs.nil s, rfl⟩
  | cons i is ih =>
    obtain ⟨t, hrun, ht⟩ := ih (complete (BaseStmt.access m (.rd (.digest i))) (.value s.h[i]) s)
    exact ⟨t, (runs_digestRead m i s).append hrun, ht⟩

theorem finRange_map_getElem {α : Type} {n : Nat} (xs : Vector α n) :
    ((List.finRange n).map fun i => xs[i]) = xs.toList := by
  apply List.ext_getElem <;> simp

/-- RDDIGEST returns the eight words of H in order (R53). -/
theorem runs_rddigest (m : Nat) (s : State) :
    ∃ t, Runs (rddigestStmts.map (BaseStmt.access m)) s t s.h.toList ∧ t.h = s.h := by
  rw [← finRange_map_getElem]
  exact runs_digestReads m (List.finRange 8) s

theorem digestResult_toList (s : State) : digestResult s.h.toList = digestBytes s := by
  rw [← finRange_map_getElem]
  simp [digestResult, digestBytes, List.finRange_succ]

/-- Settles O48: INIT gives a fresh engine, PUSHSTR feeds it the text, FINALIZE leaves the digest and RDDIGEST reads it. The
bound on the length is not used, because `sha256` and TOTAL count modulo 2^64 alike. -/
theorem hashStatementReturnsDigest : Obligations.HashStatementReturnsDigest := by
  intro s m text _
  obtain ⟨s₁, hinit, h₁⟩ := runs_init m s
  obtain ⟨s₂, hfeed, h₂⟩ := h₁.runs_feed m ((groupsOf4 text).map pushSpan)
  obtain ⟨s₃, hfinal, h₃⟩ := h₂.runs_finalize m
  obtain ⟨t, hread, ht⟩ := runs_rddigest m s₃
  obtain ⟨rs, hrun, hvalues⟩ := hinit.append (hfeed.append (hfinal.append hread))
  have hresult : digestResult (readValues rs) = digestBytes t := by
    rw [hvalues, ← digestResult_toList, ht]
    rfl
  refine ⟨_, t, rs, rfl, ?_, ?_, hresult, ?_⟩
  · rw [runBase, List.map_cons, List.map_append, pushstr_accesses]
    exact hrun
  · rw [hvalues, h₃, fedBytes_pushSpans]
    rfl
  · rw [hresult, length_digestBytes]

end Sys2Proof.Machine
end

section
/-! Command dispatch (spec/40_command_dispatch.md R54 to R57): a CMD write runs the decoded command, NOP and INIT act in
every state, and while ERR = 1 every other word is ignored. -/

namespace Sys2Proof.Machine

/-! ### From the word to the command -/

theorem execute_of_decode {v : Word} {i : Instr} (h : decode v = .ok i) (s : State) : execute v s = exec i s := by
  simp only [execute, h]

theorem decode_of_decodeTableWord {nbits w : Nat} {i : Instr} (h : decodeTableWord nbits w = some i) :
    decode (tableWord nbits w) = .ok i := by
  unfold decodeTableWord at h
  split at h
  next hdecode => cases h; exact hdecode
  next => cases h

/-- R36, R54: a CMD write executes its word, and the port answers it. -/
theorem serveAccess_commandWrite (m : Nat) (v : Word) (s : State) :
    serveAccess (commandWrite m v) s = mapNext (complete (commandWrite m v) .done) (execute v s) :=
  congrArg (mapNext (complete (commandWrite m v) .done)) (memWrite_cmd v s)

theorem step_commandWrite {s : State} {m : Nat} {v : Word} {rest : List Event} {i : Instr}
    (hs : s.inbox = .access (commandWrite m v) :: rest) (hv : decode v = .ok i) :
    step s = mapNext (complete (commandWrite m v) .done) (exec i (s.setInbox rest)) := by
  rw [step_event hs, serve, serveAccess_commandWrite, execute_of_decode hv]

theorem withFetchWord_inbox (s : State) (nbits w : Nat) :
    (s.withFetchWord nbits w).inbox = .access (commandWrite 0 (tableWord nbits w)) :: s.inbox := rfl

theorem withFetchWord_setInbox (s : State) (nbits w : Nat) : (s.withFetchWord nbits w).setInbox s.inbox = s := rfl

/-- Settles O5: the placed word is a CMD write too, and taking it off the inbox gives back the state it was placed in. -/
theorem stepRunsDecodedCommand : Obligations.StepRunsDecodedCommand := by
  refine ⟨fun _ _ _ _ _ => step_commandWrite, fun s nbits w i hw => ?_⟩
  rw [step_commandWrite (withFetchWord_inbox s nbits w) (decode_of_decodeTableWord hw), withFetchWord_setInbox]

/-! ### NOP, INIT and the error state -/

/-- Settles O17: NOP means `skip`, and 0x00000000 is its word. -/
theorem nopHasNoEffect : Obligations.NopHasNoEffect := by
  intro s
  have hexec : exec .nop s = .next s := rfl
  exact ⟨hexec, (execute_of_decode (decode_encode .nop) s).trans hexec⟩

@[simp] theorem initOp_buf (s : State) : (initOp s).buf = s.buf := rfl
@[simp] theorem initOp_w (s : State) : (initOp s).w = s.w := rfl
@[simp] theorem initOp_work (s : State) : (initOp s).work = s.work := rfl

/-- Settles O18: INIT means `initOp`, 0x00000001 is its word, and the lemmas about `initOp` say what it writes and keeps. -/
theorem initGivesFreshEngine : Obligations.InitGivesFreshEngine := by
  intro s
  have hexec : exec .init s = .next (initOp s) := rfl
  refine ⟨initOp s, hexec, (execute_of_decode (decode_encode .init) s).trans hexec, ?_⟩
  simp

/-- Settles O27: of the cases of a command word, INIT has its own word and every other case that writes a register needs
ERR = 0. The word of NOP needs no exception, because NOP changes nothing either. -/
theorem commandsIgnoredWhileError : Obligations.CommandsIgnoredWhileError := by
  intro s cmd herr _ hinit
  obtain ⟨t, ht⟩ := execute_next cmd s
  cases execute_commandCase ht with
  | skip hskip => rw [ht, hskip]
  | init hv => exact absurd hv hinit
  | reject _ _ _ he | update _ _ _ he | finalize _ he => simp [herr] at he

end Sys2Proof.Machine
end

section
/-! The byte stream of the message buffer manager (spec/41_buffer_manager.md R59, R60, R62): Absorb and AbsorbSerial take
in the same bytes, so they leave the same H, FILL and buffered bytes, in one sequence or in two. -/

namespace Sys2Proof.Machine

/-! ### The stream a state has consumed -/

/-- Every state has consumed its buffered bytes since it had its own H. -/
theorem consumed_buffered (s : State) : Consumed s.h (buffered s) s := by
  have hlt := s.fill.isLt
  have hwhole : s.fill.toNat / 64 = 0 := by omega
  constructor
  case h => rw [buffered_length, hwhole, hashBlocks]
  case fill =>
    rw [buffered_length]
    omega
  case buffered => simp [buffered_length, hwhole]

/-- The stream and the hash state it started from fix H, FILL and the buffered bytes. -/
theorem Consumed.unique {H : Vector Word 8} {X : List Byte} {s t : State} (hs : Consumed H X s) (ht : Consumed H X t) :
    Machine.buffered s = Machine.buffered t ∧ s.fill = t.fill ∧ s.h = t.h :=
  ⟨hs.buffered.trans ht.buffered.symm, BitVec.eq_of_toNat_eq (hs.fill.trans ht.fill.symm), hs.h.trans ht.h.symm⟩

/-- Settles O43: the three clauses are `absorb_fill`, `buffered_absorb` and `absorb_h`. -/
theorem absorbFoldsStream : Obligations.AbsorbFoldsStream := by
  intro S s
  refine ⟨?_, buffered_absorb S s, absorb_h S s⟩
  rw [absorb_fill, BitVec.toNat_ofNat]

/-! ### One byte of AbsorbSerial -/

/-- Storing a byte at FILL puts it after the buffered bytes. -/
theorem take_set_fill (s : State) (b : Byte) :
    (s.buf.set s.fill.toNat b).toList.take (s.fill.toNat + 1) = buffered s ++ [b] := by
  have hlt := s.fill.isLt
  rw [buffered, Vector.toList_set, List.take_add_one, List.take_set_of_le (Nat.le_refl _),
    List.getElem?_set_self (by simpa using hlt)]
  rfl

theorem firstBlock_toList (B : Vector Byte 64) : firstBlock B.toList = B := by
  ext i hi
  simp [firstBlock]

/-- R60: a byte that fills the buffer completes the block; any other byte is appended. -/
theorem absorbByte_cases (b : Byte) (s : State) :
    (s.fill.toNat + 1 = 64 ∧
      absorbByte b s = (compressBlock (s.buf.set s.fill.toNat b) s).setBuf (s.buf.set s.fill.toNat b) 0) ∨
    (s.fill.toNat + 1 < 64 ∧ absorbByte b s = s.setBuf (s.buf.set s.fill.toNat b) (s.fill + 1)) := by
  have hlt := s.fill.isLt
  unfold absorbByte
  by_cases hfull : s.fill.toNat + 1 = 64
  · exact .inl ⟨hfull, if_pos hfull⟩
  · exact .inr ⟨by omega, if_neg hfull⟩

/-- One byte through AbsorbSerial is one byte through Absorb. -/
theorem absorbByte_agrees (b : Byte) (s : State) :
    buffered (absorbByte b s) = buffered (absorb [b] s) ∧ (absorbByte b s).fill = (absorb [b] s).fill ∧
    (absorbByte b s).h = (absorb [b] s).h := by
  rw [buffered_absorb, absorb_fill, absorb_h, List.length_singleton]
  rcases absorbByte_cases b s with ⟨hfull, hb⟩ | ⟨hroom, hb⟩
  · have hstream : (s.buf.set s.fill.toNat b).toList = buffered s ++ [b] := by
      rw [← take_set_fill, hfull, List.take_of_length_le (by simp)]
    rw [hb, hfull, ← hstream]
    refine ⟨?_, rfl, ?_⟩
    · rw [buffered_empty _ rfl]
      simp
    · simp [hashBlocks, firstBlock_toList]
  · have hfill : (s.fill + 1).toNat = s.fill.toNat + 1 := Nat.mod_eq_of_lt hroom
    rw [hb, Nat.div_eq_of_lt hroom]
    refine ⟨?_, ?_, rfl⟩
    · rw [buffered, State.setBuf_buf, State.setBuf_fill, hfill, take_set_fill]
      rfl
    · rw [State.setBuf_fill, ← hfill, BitVec.ofNat_toNat, BitVec.setWidth_eq]

theorem Consumed.congr {H : Vector Word 8} {X : List Byte} {s t : State} (hs : Consumed H X s)
    (hbuf : Machine.buffered t = Machine.buffered s) (hfill : t.fill = s.fill) (hh : t.h = s.h) : Consumed H X t :=
  ⟨hh.trans hs.h, hfill ▸ hs.fill, hbuf.trans hs.buffered⟩

/-- AbsorbSerial extends the stream by the bytes it is given, as Absorb does. -/
theorem Consumed.absorbSerial {H : Vector Word 8} {X : List Byte} {s : State} (hs : Consumed H X s) (S : List Byte) :
    Consumed H (X ++ S) (absorbSerial S s) := by
  induction S generalizing X s with
  | nil => simpa [Machine.absorbSerial] using hs
  | cons b S ih =>
    obtain ⟨hbuf, hfill, hh⟩ := absorbByte_agrees b s
    have hbyte : Consumed H (X ++ [b]) (absorbByte b s) := (hs.absorb [b]).congr hbuf hfill hh
    rw [List.append_cons]
    exact ih hbyte

/-- Settles O44: both procedures extend the stream of buffered bytes by `S`. -/
theorem absorbSerialAgrees : Obligations.AbsorbSerialAgrees := fun S s =>
  ((consumed_buffered s).absorbSerial S).unique ((consumed_buffered s).absorb S)

/-- R62 for Absorb: two sequences one after the other leave what their concatenation leaves. -/
theorem absorb_append (S1 S2 : List Byte) (s : State) :
    buffered (absorb S2 (absorb S1 s)) = buffered (absorb (S1 ++ S2) s) ∧
    (absorb S2 (absorb S1 s)).fill = (absorb (S1 ++ S2) s).fill ∧
    (absorb S2 (absorb S1 s)).h = (absorb (S1 ++ S2) s).h := by
  have hone := (consumed_buffered s).absorb (S1 ++ S2)
  rw [← List.append_assoc] at hone
  exact (((consumed_buffered s).absorb S1).absorb S2).unique hone

end Sys2Proof.Machine
end

section
/-! UPDATE of a message in progress (spec/41_buffer_manager.md R59, R61, R64): the bytes of DATA it takes, and its
effect below the block boundary and across it. -/

namespace Sys2Proof.Machine

theorem updateOp_accepting {s : State} (he : s.err = false) (hp : s.phase = .accepting) (n : BitVec 3) :
    updateOp n s = (absorb (dataBytes n s.data) s).setTotal (s.total + n.setWidth 64) := by
  simp [updateOp, he, hp]

/-- The five UPDATE commands are one operation on their byte count (R61). -/
theorem exec_update {i : Instr} {n : Nat}
    (h : (i, n) ∈ [(Instr.update0, 0), (.update1, 1), (.update2, 2), (.update3, 3), (.update4, 4)]) (s : State) :
    n ≤ 4 ∧ exec i s = .next (updateOp (BitVec.ofNat 3 n) s) := by
  simp only [List.mem_cons, Prod.mk.injEq, List.not_mem_nil, or_false] at h
  rcases h with ⟨rfl, rfl⟩ | ⟨rfl, rfl⟩ | ⟨rfl, rfl⟩ | ⟨rfl, rfl⟩ | ⟨rfl, rfl⟩
  all_goals exact ⟨by decide, rfl⟩

theorem toNat_count {n : Nat} (hn : n ≤ 4) : (BitVec.ofNat 3 n).toNat = n := Nat.mod_eq_of_lt (by omega)

/-- A count of at most four bytes is the same number in TOTAL's width. -/
theorem setWidth_count {n : Nat} (hn : n ≤ 4) : (BitVec.ofNat 3 n).setWidth 64 = BitVec.ofNat 64 n := by
  apply BitVec.eq_of_toNat_eq
  rw [BitVec.toNat_setWidth, toNat_count hn, BitVec.toNat_ofNat]

/-- UPDATE N of a message in progress absorbs the first N lanes of DATA, the most significant first (R50), and counts
them. -/
theorem exec_update_accepting {s : State} {i : Instr} {n : Nat}
    (hi : (i, n) ∈ [(Instr.update0, 0), (.update1, 1), (.update2, 2), (.update3, 3), (.update4, 4)])
    (he : s.err = false) (hp : s.phase = .accepting) :
    exec i s = .next ((absorb ((bytesBe32 s.data).take n) s).setTotal (s.total + BitVec.ofNat 64 n)) := by
  obtain ⟨hn, hexec⟩ := exec_update hi s
  rw [hexec, updateOp_accepting he hp, dataBytes, toNat_count hn, setWidth_count hn]

/-- Settles O19: no bytes are absorbed and 0 is added to TOTAL. -/
theorem updateZeroChangesNothing : Obligations.UpdateZeroChangesNothing := by
  intro s he hp
  rw [exec_update_accepting (n := 0) (by simp) he hp, List.take_zero, BitVec.add_zero]
  rfl

theorem length_take_bytesBe32 {n : Nat} (hn : n ≤ 4) (v : Word) : ((bytesBe32 v).take n).length = n :=
  List.length_take_of_le hn

/-- Without a compression W and `a..h` keep their values (R59 case 1). -/
theorem absorb_engine_of_lt (S : List Byte) (s : State) (hn : s.fill.toNat + S.length < 64) :
    (absorb S s).w = s.w ∧ (absorb S s).work = s.work := by
  rcases absorb_cases S s with ⟨_, h⟩ | ⟨_, h⟩ | ⟨hge, _⟩
  · simp [h]
  · simp [h, forgetTail, absorbAppend]
  · omega

@[simp] theorem buffered_setTotal (s : State) (total : BitVec 64) : buffered (s.setTotal total) = buffered s := rfl

/-- Settles O20: the append case of Absorb, and the count. -/
theorem updateAppendsBytes : Obligations.UpdateAppendsBytes := by
  intro s i n hi he hp hroom
  refine ⟨_, exec_update_accepting hi he hp, ?_⟩
  have hlen := length_take_bytesBe32 (exec_update hi s).1 s.data
  obtain ⟨hw, hwork⟩ := absorb_engine_of_lt ((bytesBe32 s.data).take n) s (by rwa [hlen])
  have hbuf : buffered (absorb ((bytesBe32 s.data).take n) s) = buffered s ++ (bytesBe32 s.data).take n := by
    rw [buffered_absorb, hlen, Nat.div_eq_of_lt hroom, Nat.zero_mul, List.drop_zero]
  have hfill : (absorb ((bytesBe32 s.data).take n) s).fill.toNat = s.fill.toNat + n := by
    rw [absorb_fill, hlen, BitVec.toNat_ofNat, Nat.mod_eq_of_lt hroom]
  refine ⟨hbuf, hfill, ?_⟩
  simp [absorb_h_of_lt, absorb_seq, absorb_t, hw, hwork, hlen, hroom]

/-- Settles O21: the block case of Absorb with one block, since at most four bytes come on top of at most 63, and the
count. -/
theorem updateCompressesOneBlock : Obligations.UpdateCompressesOneBlock := by
  intro s i n S hi hS he hp hfull
  have hi' := List.mem_cons_of_mem (Instr.update0, 0) hi
  have hexec := exec_update_accepting hi' he hp
  have hn := (exec_update hi' s).1
  have hlen : S.length = n := hS ▸ length_take_bytesBe32 hn s.data
  have hlt := s.fill.isLt
  have hone : (s.fill.toNat + n) / 64 = 1 := by omega
  refine ⟨(absorb S s).setTotal (s.total + BitVec.ofNat 64 n), hS ▸ hexec, ?_, ?_, ?_, ?_⟩
  · rw [State.setTotal_h, absorb_h, hlen, hone, hashBlocks, hashBlocks]
  · rw [State.setTotal_fill, absorb_fill, hlen, BitVec.toNat_ofNat]
    omega
  · rw [buffered_setTotal, buffered_absorb, hlen, hone, List.drop_append, buffered_length,
      List.drop_eq_nil_of_le (by rw [buffered_length]; omega)]
    rfl
  · simp [absorb_seq, absorb_t, hlen, Nat.not_lt.2 hfull]

end Sys2Proof.Machine
end

section
/-! Messages fed through the port in any split (spec/41_buffer_manager.md R62, R63; spec/43_padding_finalize.md R83):
the engine keeps only the stream of bytes it was fed, so every split ends in the same digest, and from a fresh engine that
is the SHA-256 digest. -/

namespace Sys2Proof.Machine

/-! ### The count of the bytes fed -/

theorem length_dataBytes_count (n : Fin 5) (data : Word) : (dataBytes (BitVec.ofNat 3 n.val) data).length = n.val := by
  have hcount := toNat_count (Nat.le_of_lt_succ n.isLt)
  rw [length_dataBytes (by rw [hcount]; omega), hcount]

/-- M counts the bytes fed (R63). -/
theorem length_fedBytes (spans : List (Fin 5 × Word)) : (fedBytes spans).length = fedCount spans := by
  simp [fedBytes, fedCount, List.length_flatMap, length_dataBytes_count]

/-! ### FINALIZE of a message in progress -/

@[simp] theorem paddingCheck_h (s : State) : (paddingCheck s).h = s.h := by
  obtain ⟨err, code, h⟩ := paddingCheck_eq_setError s
  rw [h, State.setError_h]

/-- R83: FINALIZE absorbs the padding of TOTAL and closes the message. -/
theorem finalizeOp_accepting {s : State} (he : s.err = false) (hp : s.phase = .accepting) :
    (finalizeOp s).h = (absorb (padding s.total) s).h ∧ (finalizeOp s).phase = .finalized := by
  simp [finalizeOp, he, hp]

/-! ### A message in progress from any state -/

/-- Since `s` the engine has taken in and counted `X` on top of what `s` had buffered, and the message is in progress with
no error. R62 asks for it from every state, where `MessageSoFar` starts at a fresh engine. -/
structure TakenIn (s : State) (X : List Byte) (t : State) : Prop extends Consumed s.h (Machine.buffered s ++ X) t where
  total : t.total = s.total + BitVec.ofNat 64 X.length
  phase : t.phase = .accepting
  err : t.err = false

theorem takenIn_nil {s : State} (he : s.err = false) (hp : s.phase = .accepting) : TakenIn s [] s where
  toConsumed := (List.append_nil (buffered s)).symm ▸ consumed_buffered s
  total := (BitVec.add_zero s.total).symm
  phase := hp
  err := he

/-- The accesses of one span: DATA is written, then UPDATE takes its first n bytes (R101). -/
theorem runs_span (m : Nat) (n : Fin 5) (v : Word) (s : State) :
    ∃ c c', Runs (feedAccesses m [(n, v)]) s
      ((updateOp (BitVec.ofNat 3 n.val) ((s.setData v).setReply c)).setReply c') [] :=
  ⟨_, _, (runs_wr m (memWrite_data v s)).append (runs_commandWrite m (execute_updateWord n _))⟩

namespace TakenIn

variable {s t : State} {X : List Byte} (ht : TakenIn s X t)
include ht

theorem setReply (c : Option Completion) : TakenIn s X (t.setReply c) := { ht with }
theorem setData (v : Word) : TakenIn s X (t.setData v) := { ht with }

theorem updateOp (n : Fin 5) :
    TakenIn s (X ++ dataBytes (BitVec.ofNat 3 n.val) t.data) (updateOp (BitVec.ofNat 3 n.val) t) := by
  have hconsumed := ht.absorb (dataBytes (BitVec.ofNat 3 n.val) t.data)
  rw [List.append_assoc] at hconsumed
  rw [updateOp_accepting ht.err ht.phase]
  exact {
    h := hconsumed.h
    fill := hconsumed.fill
    buffered := hconsumed.buffered
    total := by
      rw [State.setTotal_total, ht.total, List.length_append, length_dataBytes_count, BitVec.ofNat_add,
        BitVec.add_assoc, setWidth_count (by omega)]
    phase := by simp [ht.phase]
    err := by simp [ht.err] }

/-- `WR DATA` / `UPDATE n` pairs complete and take in the bytes they feed, in order. -/
theorem runs_feed (m : Nat) (spans : List (Fin 5 × Word)) :
    ∃ u, Runs (feedAccesses m spans) t u [] ∧ TakenIn s (X ++ fedBytes spans) u := by
  induction spans generalizing X t with
  | nil => exact ⟨t, Runs.nil t, by simpa [fedBytes] using ht⟩
  | cons span spans ih =>
    obtain ⟨n, v⟩ := span
    obtain ⟨c, c', hspan⟩ := runs_span m n v t
    obtain ⟨u, hrun, hu⟩ := ih ((((ht.setData v).setReply c).updateOp n).setReply c')
    exact ⟨u, hspan.append hrun, by simpa [fedBytes] using hu⟩

/-- The bytes taken in fix H, FILL, TOTAL and the buffered bytes. -/
theorem unique {u : State} (hu : TakenIn s X u) :
    t.h = u.h ∧ t.fill = u.fill ∧ t.total = u.total ∧ buffered t = buffered u := by
  obtain ⟨hbuf, hfill, hh⟩ := ht.toConsumed.unique hu.toConsumed
  exact ⟨hh, hfill, ht.total.trans hu.total.symm, hbuf⟩

/-- H after FINALIZE depends only on the bytes taken in: the padding is that of TOTAL, which counts them. -/
theorem finalizeOp_h_unique {u : State} (hu : TakenIn s X u) : (finalizeOp t).h = (finalizeOp u).h := by
  have htotal : t.total = u.total := ht.total.trans hu.total.symm
  obtain ⟨-, -, hpadded⟩ := (ht.absorb (padding t.total)).unique (hu.absorb (padding t.total))
  rw [(finalizeOp_accepting ht.err ht.phase).1, (finalizeOp_accepting hu.err hu.phase).1, hpadded, htotal]

end TakenIn

/-- Settles O45: both runs take in the same bytes, and these fix what is compared, before FINALIZE and after it. -/
theorem streamingEquivalence : Obligations.StreamingEquivalence := by
  refine ⟨absorb_append, fun s m spans spans' he hp hbytes => ?_⟩
  obtain ⟨t, ⟨rs, hrun, _⟩, ht⟩ := (takenIn_nil he hp).runs_feed m spans
  obtain ⟨t', ⟨rs', hrun', _⟩, ht'⟩ := (takenIn_nil he hp).runs_feed m spans'
  rw [← hbytes] at ht'
  obtain ⟨hh, hfill, htotal, hbuf⟩ := ht.unique ht'
  exact ⟨t, t', rs, rs', hrun, hrun', hh, hfill, htotal, hbuf, finalizeOp t, finalizeOp t', rfl, rfl,
    (finalizeOp_accepting ht.err ht.phase).2, (finalizeOp_accepting ht'.err ht'.phase).2, ht.finalizeOp_h_unique ht'⟩

/-! ### From a fresh engine -/

/-- Settles O46: from a fresh engine the stream is the bytes fed, and M is their number. -/
theorem bufferAccounting : Obligations.BufferAccounting := by
  refine ⟨⟨rfl, rfl, rfl, rfl, rfl, rfl⟩, fun s => ⟨initOp s, rfl, initOp_fresh s⟩, fun s m spans hs => ?_⟩
  obtain ⟨t, ⟨rs, hrun, _⟩, ht⟩ := hs.messageSoFar.runs_feed m spans
  rw [List.nil_append] at ht
  have hlast : (fedBytes spans).length / 64 * 64 = (fedBytes spans).length - t.fill.toNat := by
    rw [ht.fill]
    omega
  rw [← length_fedBytes]
  exact ⟨t, rs, hrun, by rw [ht.total, BitVec.toNat_ofNat], ht.fill, hlast ▸ ht.buffered, ht.h, ht.phase, ht.err⟩

namespace MessageSoFar

variable {msg : List Byte} {s : State} (hs : MessageSoFar msg s)
include hs

/-- The padding completes the last block, so FINALIZE leaves an empty buffer. -/
theorem finalizeOp_fill : (finalizeOp s).fill = 0 := by
  have hfill : s.fill.toNat = s.total.toNat % 64 := by
    rw [hs.fill, hs.total, BitVec.toNat_ofNat]
    omega
  rw [hs.finalizeOp_eq, State.setPhase_fill, absorb_padding_fill hfill]

/-- STATUS after FINALIZE: PHASE is FINALIZED, and FILL, ERRCODE and ERR are 0 (R29). -/
theorem finalizeOp_status : statusWord (finalizeOp s) = 0x00000001 := by
  have hphase : (finalizeOp s).phase = .finalized := by simp [hs.finalizeOp_eq]
  have herr : (finalizeOp s).err = false := by simp [hs.finalizeOp_eq, hs.err]
  have hcode : (finalizeOp s).errCode = .none := by simp [hs.finalizeOp_eq, hs.errCode]
  rw [statusWord, hs.finalizeOp_fill, hphase, herr, hcode]
  rfl

theorem finalizeOp_total : (finalizeOp s).total = BitVec.ofNat 64 msg.length := by
  rw [hs.finalizeOp_eq, State.setPhase_total, absorb_total, hs.total]

end MessageSoFar

/-- Settles O47: the feed leaves the message so far, and FINALIZE its digest. Below 2^61 bytes TOTAL does not wrap; the
digest needs no bound, because `sha256` and TOTAL count modulo 2^64 alike. -/
theorem digestOfEveryMessage : Obligations.DigestOfEveryMessage := by
  intro s m spans hs hshort
  obtain ⟨u, hfeed, hu⟩ := hs.messageSoFar.runs_feed m spans
  rw [List.nil_append] at hu
  obtain ⟨rs, hrun, _⟩ := hfeed.append (runs_commandWrite m (v := 0x00000003) (t := finalizeOp u) rfl)
  refine ⟨_, rs, hrun, hu.finalizeOp_h, hu.finalizeOp_status, ?_⟩
  have hcount : (BitVec.ofNat 64 (fedCount spans)).toNat = fedCount spans := Nat.mod_eq_of_lt (by omega)
  rw [complete, State.setReply_total, hu.finalizeOp_total, length_fedBytes, hcount]

end Sys2Proof.Machine
end

section
/-! The compression engine (spec/42_compression.md R66 to R79): the bits of its word functions, its schedule and the
sixteen-word window that can stand in for it, its rounds, and the sequencer that runs them. -/

namespace Sys2Proof.Machine

/-! ### Choose and majority -/

/-- R72: a bit of `x` selects between the bits of `y` and `z`. -/
theorem getLsbD_ch (x y z : Word) {i : Nat} (hi : i < 32) :
    (ch x y z).getLsbD i = if x.getLsbD i then y.getLsbD i else z.getLsbD i := by
  rw [ch, BitVec.getLsbD_xor, BitVec.getLsbD_and, BitVec.getLsbD_and, BitVec.getLsbD_not]
  cases x.getLsbD i <;> simp [hi]

/-- R73 on single bits: the exclusive or of the three products is the majority. -/
theorem xor_of_products_eq_majority (a b c : Bool) :
    ((a && b) ^^ (a && c) ^^ (b && c)) = decide (2 ≤ a.toNat + b.toNat + c.toNat) := by
  revert a b c
  decide

theorem getLsbD_maj (x y z : Word) (i : Nat) :
    (maj x y z).getLsbD i = decide (2 ≤ (x.getLsbD i).toNat + (y.getLsbD i).toNat + (z.getLsbD i).toNat) := by
  simp only [maj, BitVec.getLsbD_xor, BitVec.getLsbD_and, xor_of_products_eq_majority]

/-- Settles O36. -/
theorem chooseAndMajorityBits : Obligations.ChooseAndMajorityBits :=
  fun x y z i hi => ⟨getLsbD_ch x y z hi, getLsbD_maj x y z i⟩

/-! ### The four sigma functions -/

/-- Three rotations combined by exclusive or, the form of `Σ0` and `Σ1` (R70, R71). -/
theorem getLsbD_rotr_xor_rotr_xor_rotr (x : Word) {l m n i : Nat} (hl : l < 32) (hm : m < 32) (hn : n < 32)
    (hi : i < 32) :
    (rotr x l ^^^ rotr x m ^^^ rotr x n).getLsbD i =
      ((x.getLsbD ((i + l) % 32) ^^ x.getLsbD ((i + m) % 32)) ^^ x.getLsbD ((i + n) % 32)) := by
  rw [BitVec.getLsbD_xor, BitVec.getLsbD_xor, getLsbD_rotr x hl hi, getLsbD_rotr x hm hi, getLsbD_rotr x hn hi]

/-- Two rotations and a logical shift combined by exclusive or, the form of `σ0` and `σ1` (R67, R68). -/
theorem getLsbD_rotr_xor_rotr_xor_shr (x : Word) {l m n i : Nat} (hl : l < 32) (hm : m < 32) (hi : i < 32) :
    (rotr x l ^^^ rotr x m ^^^ shr x n).getLsbD i =
      ((x.getLsbD ((i + l) % 32) ^^ x.getLsbD ((i + m) % 32)) ^^ (decide (i + n ≤ 31) && x.getLsbD (i + n))) := by
  rw [BitVec.getLsbD_xor, BitVec.getLsbD_xor, getLsbD_rotr x hl hi, getLsbD_rotr x hm hi, getLsbD_shr]

/-- Settles O37: each function is one of the two forms at its own amounts. -/
theorem sigmasRotate : Obligations.SigmasRotate := fun x i hi =>
  ⟨getLsbD_rotr_xor_rotr_xor_shr x (by decide) (by decide) hi,
    getLsbD_rotr_xor_rotr_xor_shr x (by decide) (by decide) hi,
    getLsbD_rotr_xor_rotr_xor_rotr x (by decide) (by decide) (by decide) hi,
    getLsbD_rotr_xor_rotr_xor_rotr x (by decide) (by decide) (by decide) hi⟩

/-! ### The schedule and its window -/

/-- Settles O39. -/
theorem scheduleRecurrence : Obligations.ScheduleRecurrence :=
  fun B => ⟨schedule_get_of_lt B, schedule_get_of_ge B⟩

/-- Window step n, for n from 16, writes slot `n mod 16` and no other (R79). -/
theorem windowStep_get (Wr : Vector Word 16) {n : Nat} (hn : 16 ≤ n) (j : Nat) (hj : j < 16) :
    (windowStep Wr n)[j] =
      if n % 16 = j then Wr[n % 16] + sigma0 Wr[(n + 1) % 16] + Wr[(n + 9) % 16] + sigma1 Wr[(n + 14) % 16]
      else Wr[j] := by
  rw [windowStep, if_neg (by omega), Vector.getElem_set]

/-- The invariant of the window: schedule word j stands in slot `j mod 16` from its own step (or from the load) until
the step of round `j + 16` overwrites it. -/
theorem windowUpTo_get (B : Vector Byte 64) (n j : Nat) (hj : j < 64) (hwritten : j < 16 ∨ j < n)
    (hkept : n ≤ j + 16) : (windowUpTo B n)[j % 16] = (schedule B)[j] := by
  induction n generalizing j with
  | zero =>
    have h16 : j < 16 := by omega
    simp [windowUpTo, loadWindow, schedule_get_of_lt B j h16, Nat.mod_eq_of_lt h16]
  | succ n ih =>
    rw [windowUpTo]
    by_cases hn : n < 16
    · rw [windowStep, if_pos hn]
      exact ih j hj (by omega) (by omega)
    rw [windowStep_get _ (by omega)]
    split
    next hslot =>
      obtain rfl : n = j := by omega
      have back (k d : Nat) (hk : 0 < k ∧ k ≤ 16) (hd : k + d = 16) :
          (windowUpTo B n)[(n + d) % 16] = (schedule B)[n - k] := by
        have hmod : (n + d) % 16 = (n - k) % 16 := by omega
        simp only [hmod]
        exact ih (n - k) (by omega) (by omega) (by omega)
      rw [schedule_get_of_ge B n (by omega) hj, ← back 16 0 (by omega) rfl, ← back 15 1 (by omega) rfl,
        ← back 7 9 (by omega) rfl, ← back 2 14 (by omega) rfl]
      rfl
    next hslot => exact ih j hj (by omega) (by omega)

/-- Settles O41: after the step for round t, word t is in its slot. -/
theorem windowGivesSchedule : Obligations.WindowGivesSchedule :=
  fun B t ht => windowUpTo_get B (t + 1) t ht (by omega) (by omega)

/-! ### The rounds -/

/-- Round i takes entry i of the constant ROM and of the schedule (R74). -/
theorem roundsUpTo_succ (W : Vector Word 64) (start : WorkRegs) (i : Nat) (hi : i < 64) :
    roundsUpTo W start (i + 1) = round (roundsUpTo W start i) kRom[i] W[i] := by
  simp only [roundsUpTo, Fin.getElem_fin, index64_val hi]

/-- Settles O38: `round` at the state after i rounds. -/
theorem roundMovesRegisters : Obligations.RoundMovesRegisters :=
  fun W start i hi => roundsUpTo_succ W start i hi

/-! ### The sequencer -/

/-- The micro-step after the 64 rounds is the FOLD (R77). -/
theorem seqRun_fold (X : Vector Byte 64) (s : State) :
    seqRun 65 (seqStart X s) = seqFold (seqRun 64 (seqStart X s)) := by
  have hseq : (seqRun 64 (seqStart X s)).seq = .fold := (seqRun_atRound X s 64 (by omega)).seq
  rw [seqRun_succ, seqStep, hseq]

theorem seqRun_fold_h (X : Vector Byte 64) (s : State) : (seqRun 65 (seqStart X s)).h = compress s.h X := by
  have hrun := seqRun_atRound X s 64 (by omega)
  rw [seqRun_fold, seqFold, State.setSeq_h, State.setH_h, hrun.h, hrun.work, compress]

theorem seqRun_fold_seq (X : Vector Byte 64) (s : State) : (seqRun 65 (seqStart X s)).seq = .idle := by
  rw [seqRun_fold, seqFold, State.setSeq_seq]

/-- Settles O40: `AtRound` holds after START and every ROUND keeps it, and FOLD takes it to `compress`. -/
theorem sequencerComputesCompress : Obligations.SequencerComputesCompress := by
  refine fun X s => ⟨fun k hk => ?_, seqRun_fold_h X s, seqRun_fold_seq X s, compressBlock_h X s⟩
  have hrun := seqRun_atRound X s k hk
  refine ⟨hrun.work, fun j hj hwritten => ?_, hrun.h, hrun.t, hrun.seq⟩
  simp only [hrun.w]
  exact scheduleUpTo_loadBlock_get X s.w k hk j hj hwritten

end Sys2Proof.Machine
end

section
/-! FINALIZE (spec/43_padding_finalize.md R80 to R86): what the padding is, what FINALIZE of a message in progress leaves,
when the check after it fails, and that the closed engine takes no more of the message. -/

namespace Sys2Proof.Machine

/-! ### The bytes of the padding -/

/-- The terminator byte and the length field always have room (R80). -/
theorem padBytes_ge (T : BitVec 64) : 9 ≤ padBytes T := by
  rw [padBytes_eq]
  split <;> omega

/-- R80: the terminator byte, zero bytes, and the length field. -/
theorem padding_eq (T : BitVec 64) :
    padding T = 0x80 :: (List.replicate (padBytes T - 9) 0 ++ bytesBe64 (lengthBits T)) := by
  obtain ⟨k, hk⟩ := Nat.exists_eq_add_of_le' (padBytes_ge T)
  have htake : k + 9 - 8 = k + 1 := by omega
  rw [padding, hk, List.replicate_succ, List.set_cons_zero, htake, List.take_succ_cons, List.take_replicate]
  simp

theorem padding_getElem?_zero (T : BitVec 64) : (padding T)[0]? = some 0x80 := by
  rw [padding_eq, List.getElem?_cons_zero]

/-- Between the terminator byte and the length field the padding is zero. -/
theorem padding_getElem?_between {T : BitVec 64} {j : Nat} (hpos : 0 < j) (hlast : j + 8 < padBytes T) :
    (padding T)[j]? = some 0x00 := by
  obtain ⟨i, rfl⟩ := Nat.exists_eq_add_of_lt hpos
  have hi : i < padBytes T - 9 := by omega
  simp [padding_eq, List.getElem?_append_left, hi]

/-- The last eight bytes are the length field. -/
theorem padding_drop (T : BitVec 64) : (padding T).drop (padBytes T - 8) = bytesBe64 (lengthBits T) := by
  have hroom := padBytes_ge T
  have hzeros : padBytes T - 8 = (padBytes T - 9) + 1 := by omega
  rw [padding_eq, hzeros, List.drop_succ_cons, List.drop_left' (by simp)]

/-- The length field counts bits: eight to a byte, modulo 2^64. -/
theorem lengthBits_eq (T : BitVec 64) : lengthBits T = BitVec.ofNat 64 (8 * T.toNat) := by
  apply BitVec.eq_of_toNat_eq
  rw [lengthBits, BitVec.toNat_shiftLeft, Nat.shiftLeft_eq, BitVec.toNat_ofNat, Nat.mul_comm]

/-- Settles O24: the padding length of R81, and f plus it. -/
theorem paddingLength : Obligations.PaddingLength := by
  intro T
  rw [length_padding, padBytes_eq]
  refine ⟨rfl, ?_⟩
  split <;> omega

/-- Settles O25: TOTAL is M modulo 2^64, so it has M's residue modulo 64 and M's bit length modulo 2^64. -/
theorem paddedLengthAndTail : Obligations.PaddedLengthAndTail := by
  intro M
  have hroom := padBytes_ge (BitVec.ofNat 64 M)
  have hwhole := padBytes_completes (BitVec.ofNat 64 M)
  have hbits : lengthBits (BitVec.ofNat 64 M) = BitVec.ofNat 64 (8 * M) := by
    apply BitVec.eq_of_toNat_eq
    simp [lengthBits_eq]
  rw [BitVec.toNat_ofNat] at hwhole
  rw [length_padding, padding_drop, hbits]
  exact ⟨by omega, by omega, rfl⟩

/-- Settles O26: R80's `bits` is the length field, so its `pad_bits` is the model's. -/
theorem paddingContents : Obligations.PaddingContents := by
  intro T bits pad hbits hpad
  have hfield : bits = (lengthBits T).toNat := by
    rw [hbits, lengthBits_eq, BitVec.toNat_ofNat, Nat.mul_comm]
  have hlen : padBytes T = pad / 8 := by rw [hpad, hfield]; rfl
  have htail : BitVec.ofNat 64 bits = lengthBits T := by rw [hfield, BitVec.ofNat_toNat, BitVec.setWidth_eq]
  rw [length_padding, padding_drop, htail]
  exact ⟨hlen, padding_getElem?_zero T, fun j => padding_getElem?_between, rfl⟩

/-! ### FINALIZE of a message in progress -/

theorem exec_finalize_accepting {s : State} (he : s.err = false) (hp : s.phase = .accepting) :
    exec .finalize s = .next ((paddingCheck (absorb (padding s.total) s)).setPhase .finalized) := by
  have hop : finalizeOp s = (paddingCheck (absorb (padding s.total) s)).setPhase .finalized := by
    simpa [he, hp] using finalizeOp_cases s
  exact congrArg Host.Outcome.next hop

/-- On the invariant's clause FILL = TOTAL mod 64 the padding closes the message in one block or two (R81). -/
theorem fill_add_padBytes {s : State} (hfill : s.fill.toNat = s.total.toNat % 64) :
    s.fill.toNat + padBytes s.total = 64 * if s.fill.toNat ≤ 55 then 1 else 2 := by
  rw [padBytes_eq, ← hfill]
  split <;> omega

/-- Settles O22: the check passes, so FINALIZE is the absorption of the padding, which fills one block or two. -/
theorem finalizeClosesMessage : Obligations.FinalizeClosesMessage := by
  intro s he hp hfill
  have hexec := exec_finalize_accepting he hp
  rw [finalize_passes_check hfill] at hexec
  have hlen := fill_add_padBytes hfill
  have hfull : ¬ s.fill.toNat + padBytes s.total < 64 := by rw [hlen]; split <;> omega
  refine ⟨_, hexec, ?_, absorb_padding_fill hfill, ?_⟩
  · rw [State.setPhase_h, absorb_h, length_padding, hlen, Nat.mul_div_cancel_left _ (by decide)]
  · simp [absorb_seq, absorb_t, hfull]

/-- The converse of `absorb_padding_fill`: the padding completes TOTAL's last block, so with another FILL it ends inside a
block. -/
theorem fill_of_absorb_padding_fill {s : State} (h : (absorb (padding s.total) s).fill = 0) :
    s.fill.toNat = s.total.toNat % 64 := by
  have hfill := s.fill.isLt
  have hwhole := padBytes_completes s.total
  have hzero : (s.fill.toNat + padBytes s.total) % 64 = 0 := by
    simpa [absorb_fill] using congrArg BitVec.toNat h
  omega

/-- Off the invariant the check of R84 records PADDING_CHECK. -/
theorem finalize_fails_check {s : State} (he : s.err = false) (hfill : s.fill.toNat ≠ s.total.toNat % 64) :
    paddingCheck (absorb (padding s.total) s) = (absorb (padding s.total) s).setError true .paddingCheck := by
  rcases paddingCheck_cases (absorb (padding s.total) s) with ⟨hzero, _⟩ | ⟨_, hcheck⟩
  · exact absurd (fill_of_absorb_padding_fill hzero) hfill
  · rw [hcheck]
    simpa [he] using contractError_cases .paddingCheck (absorb (padding s.total) s)

/-- Settles O23: the check passes or fails as FILL agrees with TOTAL or not. -/
theorem paddingCheckFailsOnlyOffInvariant : Obligations.PaddingCheckFailsOnlyOffInvariant := by
  intro s he hp
  refine ⟨_, exec_finalize_accepting he hp, rfl, fun hfill => ?_, fun hfill => ?_⟩
  · rw [finalize_passes_check hfill]
    simp [absorb_padding_fill hfill, he]
  · rw [finalize_fails_check he hfill]
    exact ⟨fun h => hfill (fill_of_absorb_padding_fill h), rfl, rfl⟩

/-! ### After FINALIZE -/

theorem updateOp_finalized {s : State} (he : s.err = false) (hp : s.phase = .finalized) (n : BitVec 3) :
    updateOp n s = s.setError true .updateAfterFinalize := by
  simpa [he, hp] using updateOp_cases n s

theorem finalizeOp_finalized {s : State} (he : s.err = false) (hp : s.phase = .finalized) :
    finalizeOp s = s.setError true .finalizeAfterFinalize := by
  simpa [he, hp] using finalizeOp_cases s

/-- Every UPDATE is `updateOp` of its count. -/
theorem exec_update_of_mem {i : Instr} (h : i ∈ [Instr.update0, .update1, .update2, .update3, .update4]) (s : State) :
    ∃ n, exec i s = .next (updateOp n s) := by
  have hcount : ∃ n, (i, n) ∈ [(Instr.update0, 0), (.update1, 1), (.update2, 2), (.update3, 3), (.update4, 4)] := by
    simpa [exists_or] using h
  obtain ⟨n, hn⟩ := hcount
  exact ⟨_, (exec_update hn s).2⟩

/-- Settles O29: the phase check rejects UPDATE and FINALIZE, and of the writers of PHASE only INIT and reset write
ACCEPTING. -/
theorem finalizedEngineIsSpent : Obligations.FinalizedEngineIsSpent := by
  refine ⟨fun s i he hp hi => ?_, fun s he hp => ?_, fun s t hstep hs ht => ?_⟩
  · obtain ⟨n, hexec⟩ := exec_update_of_mem hi s
    rw [hexec, updateOp_finalized he hp, State.setError]
  · exact congrArg Host.Outcome.next (finalizeOp_finalized he hp)
  · rcases phaseWriters s t hstep (by simp [hs, ht]) with ⟨hfinal, _⟩ | ⟨_, hwriter⟩
    · simp [ht] at hfinal
    · exact hwriter

end Sys2Proof.Machine
end

section
/-! Exceptions (spec/60_exceptions.md R88, R93, R96, R97): what recording a contract error writes, that a CMD write always
completes, that no effect depends on the master, and that the instances of a platform are isolated. -/

namespace Sys2Proof.Machine

/-! ### Contract errors -/

/-- Settles O28, by the two cases of `contractError`. -/
theorem firstContractErrorRecorded : Obligations.FirstContractErrorRecorded := by
  intro code s
  rcases contractError_cases code s with ⟨he, h⟩ | ⟨he, h⟩
  · simp [he, h]
  · simp [he, h, State.setError]

/-- Settles O11: every command word has a next state, and the port answers the write. -/
theorem commandWriteAlwaysCompletes : Obligations.CommandWriteAlwaysCompletes := by
  intro s m v rest hs
  obtain ⟨u, hu⟩ := execute_next v (s.setInbox rest)
  refine ⟨complete (commandWrite m v) .done u, ?_, rfl⟩
  rw [step_event hs, serve, serveAccess_commandWrite, hu, mapNext]

/-! ### The master of an access -/

theorem serveAccess_write (m : Nat) {off : Offset} {width : AccessWidth} {v : Word} {s u : State}
    (h : memWrite off width v s = .next u) :
    serveAccess ⟨m, off, width, .write v⟩ s = .next (complete ⟨m, off, width, .write v⟩ .done u) :=
  congrArg (mapNext (complete _ .done)) h

/-- The answer and the next state of an access that completes are found without looking at its master. -/
theorem serveAccess_from_any_master {a : Access} {s t : State} (h : serveAccess a s = .next t) :
    ∃ r u, ∀ m, serveAccess { a with master := m } s = .next (complete { a with master := m } r u) := by
  obtain ⟨m₀, off, width, op⟩ := a
  rcases serveAccess_next h with ⟨v, rfl, hv, _⟩ | ⟨v, ha, _⟩ | ⟨v, u, ha, hu, _⟩
  · exact ⟨.value v, s, fun m => by simp only [serveAccess, hv]⟩
  · cases ha
    exact ⟨.done, s.setData v, fun m => serveAccess_write m (memWrite_data v s)⟩
  · cases ha
    exact ⟨.done, u, fun m => serveAccess_write m ((memWrite_cmd v s).trans hu)⟩

/-- Settles O52: `t` is the next state for `a`'s own master, so the two differ in the recorded access only. -/
theorem masterNumberIrrelevant : Obligations.MasterNumberIrrelevant := by
  intro s t a m h
  obtain ⟨r, u, hany⟩ := serveAccess_from_any_master h
  obtain rfl : t = complete a r u := Host.Outcome.next.inj (h.symm.trans (hany a.master))
  exact hany m

/-! ### The instances of a platform -/

/-- R33: an offset is given only for an address inside the window. -/
theorem window_of_offsetIn {base addr : Nat} {off : Offset} (h : offsetIn base addr = some off) :
    base ≤ addr ∧ addr < base + 256 := by
  unfold offsetIn at h
  split at h
  next hwindow => exact hwindow
  next => cases h

/-- The inversion of `platformAccess`: it reaches no instance, or one whose window holds the address. -/
theorem platformAccess_next {a : HostAccess} {p q : Platform} (h : platformAccess a p = .next q) :
    q = p ∨ ∃ k s off t, p[k]? = some s ∧ offsetIn s.base a.addr = some off ∧
      serveAccess (a.at off) s.inst = .next t ∧ q = p.set k { s with inst := t } := by
  induction p generalizing q with
  | nil =>
    cases h
    exact .inl rfl
  | cons s rest ih =>
    unfold platformAccess at h
    split at h
    next off hoff =>
      split at h
      next t ht =>
        cases h
        exact .inr ⟨0, s, off, t, rfl, hoff, ht, rfl⟩
      next => cases h
      next => cases h
    next =>
      split at h
      next rest' hrest =>
        cases h
        rcases ih hrest with rfl | ⟨k, s', off, t, hk, hoff, ht, rfl⟩
        · exact .inl rfl
        · exact .inr ⟨k + 1, s', off, t, hk, hoff, ht, rfl⟩
      next => cases h
      next => cases h

theorem platformAccess_bases {a : HostAccess} {p q : Platform} (h : platformAccess a p = .next q) :
    q.map Slot.base = p.map Slot.base := by
  rcases platformAccess_next h with rfl | ⟨k, s, _, t, hk, _, _, rfl⟩
  · rfl
  · obtain ⟨hlt, rfl⟩ := List.getElem?_eq_some_iff.1 hk
    rw [List.map_set, ← List.getElem_map Slot.base (h := by simpa using hlt), List.set_getElem_self]

/-- R97: an instance whose window does not hold the address keeps its state. -/
theorem platformAccess_outside {a : HostAccess} {p q : Platform} (h : platformAccess a p = .next q) {k : Nat}
    {s u : Slot} (hs : p[k]? = some s) (hu : q[k]? = some u) (hout : ¬ (s.base ≤ a.addr ∧ a.addr < s.base + 256)) :
    u = s := by
  rcases platformAccess_next h with rfl | ⟨j, s', _, t, hj, hoff, _, rfl⟩
  · exact Option.some.inj (hu.symm.trans hs)
  · have hne : j ≠ k := by
      rintro rfl
      obtain rfl : s' = s := Option.some.inj (hj.symm.trans hs)
      exact hout (window_of_offsetIn hoff)
    rw [List.getElem?_set_ne hne] at hu
    exact Option.some.inj (hu.symm.trans hs)

/-- R33, R97: windows of 256 bytes at multiples of 256 either coincide or are disjoint, and no two instances share a
base. -/
theorem Platform.WellFormed.window_unique {p : Platform} (hp : p.WellFormed) {addr j k : Nat} {s u : Slot}
    (hs : p[j]? = some s) (hu : p[k]? = some u) (hsaddr : s.base ≤ addr ∧ addr < s.base + 256)
    (huaddr : u.base ≤ addr ∧ addr < u.base + 256) : j = k := by
  obtain ⟨haligned, hnodup⟩ := hp
  have hs256 := haligned s (List.mem_of_getElem? hs)
  have hu256 := haligned u (List.mem_of_getElem? hu)
  have hbase : s.base = u.base := by omega
  refine (List.getElem?_inj ?_ hnodup).1 ?_
  · simpa using (List.getElem?_eq_some_iff.1 hs).1
  · simp only [List.getElem?_map, hs, hu, Option.map_some, hbase]

/-- Settles O53: only the instance whose window holds the address can change, and there is at most one. -/
theorem instancesAreIsolated : Obligations.InstancesAreIsolated := fun _ _ _ hp h =>
  ⟨platformAccess_bases h, fun _ _ _ => platformAccess_outside h,
    fun _ _ _ _ hj hk hslow hshigh hulow huhigh => hp.window_unique hj hk ⟨hslow, hshigh⟩ ⟨hulow, huhigh⟩⟩

end Sys2Proof.Machine
end

section
/-! The reset input (spec/70_reset_and_hazards.md R99): the step that serves it, and the registers it restores. -/

namespace Sys2Proof.Machine

/-- R99: a step whose oldest event is the reset input resets the block, whatever access it aborts. -/
theorem step_reset {s : State} {aborted : Option Access} {rest : List Event} (h : s.inbox = .reset aborted :: rest) :
    step s = .next (resetBlock aborted (s.setInbox rest)) := by
  rw [step_event h, serve]

/-- Settles O16: the step is `resetBlock`, and the reset column of R31 is what that leaves in each register. -/
theorem hardwareResetRestoresState : Obligations.HardwareResetRestoresState := by
  intro s aborted rest hs
  exact ⟨resetBlock aborted (s.setInbox rest), step_reset hs, resetBlock_h _ _, resetBlock_fill _ _,
    resetBlock_total _ _, resetBlock_phase _ _, resetBlock_err _ _, resetBlock_errCode _ _, resetBlock_data _ _,
    resetBlock_seq _ _, resetBlock_t _ _⟩

end Sys2Proof.Machine
end

section
/-! The decoder on words written out from their fields (spec/30_encoding.md R48 to R52): a well-formed triple is an
instruction's, and every other triple is refused with the case of R52 it falls under. -/

namespace Sys2Proof.Machine

/-- R52: a refused word is refused under the case `illegalReason` names. -/
theorem illegalReason_of_decode {cmd : Word} {e : DecodeError} (h : decode cmd = .error e) : illegalReason cmd = e := by
  unfold decode at h
  split at h
  next => cases h
  split at h
  next => cases h
  split at h
  next => cases h
  split at h
  next =>
    split at h
    next => cases h
    next => exact Except.error.inj h
  next => exact Except.error.inj h

/-- R52: a triple of fields that is not well-formed packs to an illegal word. -/
theorem decode_pack_of_not_wellFormed {f : CommandFields} (h : ¬ f.wellFormed = true) :
    decode f.pack = .error (illegalReason f.pack) := by
  cases hdecode : decode f.pack with
  | ok i => exact absurd ((decode_pack_iff f).1 ⟨i, hdecode⟩) h
  | error e => rw [illegalReason_of_decode hdecode]

/-- Settles O4: the five legal words are their instructions' own, and the four illegal words pack an UPDATE count of 5, a
NOP with a count, the reserved OP 15, and an INIT with bit 31 set. -/
theorem sampleWordsDecode : Obligations.SampleWordsDecode :=
  ⟨decode_encode .nop, decode_encode .init, decode_encode .update0, decode_encode .update4, decode_encode .finalize,
    decode_pack_of_not_wellFormed (f := ⟨2, 5, 0⟩) (by decide),
    decode_pack_of_not_wellFormed (f := ⟨0, 1, 0⟩) (by decide),
    decode_pack_of_not_wellFormed (f := ⟨15, 0, 0⟩) (by decide),
    decode_pack_of_not_wellFormed (f := ⟨1, 0, 0x1000000⟩) (by decide)⟩

end Sys2Proof.Machine
end
